-- ==== Sys2Proof/Word.lean ====
section
/-! DEFINITION. The widths of the machine and the narrowing of an integer to a word (spec/00_scope.md R5, R8). -/

namespace Sys2Proof

/-- A 32-bit pattern: a data word, a code word, an operand-stack entry (R5 `XLEN`, `ILEN`; R8 `Word`). -/
abbrev Word := BitVec 32

/-- The 16-bit operand field, an unsigned number 0 to 65535 (R5 `IMMW`, R60). -/
abbrev Operand := BitVec 16

/-- The 16-bit opcode field (R5 `OPW`, R60). -/
abbrev Opcode := BitVec 16

/-- A 17-bit pointer register, `pc` or `sp`, or a saved program counter (R5 `PCW`, `SPW`; R27). -/
abbrev Pointer := BitVec 17

/-- One byte of a program file (R195). -/
abbrev Byte := BitVec 8

/-- `wrap(z)` of R8: the word whose unsigned value is `z mod 2^32`. -/
def wrap (z : Int) : Word := BitVec.ofInt 32 z

end Sys2Proof
end

