-- ==== Sys2Proof/Syntax.lean ====
section
/-! DEFINITION. The instructions of the machine, one constructor per row of spec/opcode_table.json (spec/30_encoding.md R64). -/

namespace Sys2Proof

/-- The 36 instructions of R64, in the table's order. The seven `OP16` instructions carry their operand field;
the 29 `OP0` instructions carry none, since their operand field is ignored (R63). -/
inductive Instr where
  | halt
  | push (n : Operand)
  | rvalue (n : Operand)
  | lvalue (n : Operand)
  | pop
  | sto
  | copy
  | add
  | sub
  | mpy
  | div
  | mod
  | neg
  | not
  | or
  | and
  | eq
  | ne
  | gt
  | ge
  | lt
  | le
  | label
  | goto (n : Operand)
  | gofalse (n : Operand)
  | gotrue (n : Operand)
  | print
  | read
  | gosub (n : Operand)
  | ret
  | orb
  | andb
  | xorb
  | shl
  | shr
  | sar
  deriving DecidableEq, Repr

end Sys2Proof
end

