-- ==== Sys2Proof/Decode.lean ====
section
/-! DEFINITION. The instruction decoder and the encoder (spec/30_encoding.md R60 to R66), and the byte order of a
program file (spec/20_memory.md R40). -/

namespace Sys2Proof

/-- `opcode = w[31:16]`, unsigned (R61). -/
def opcodeField (w : Word) : Opcode := w.extractLsb' 16 16

/-- `operand = w[15:0]`, unsigned (R61). -/
def operandField (w : Word) : Operand := w.extractLsb' 0 16

/-- One row of the opcode map: the opcode number and the instruction it selects, given the operand field. -/
structure OpRow where
  opcode : Opcode
  build : Operand → Instr

/-- R64, HALT and the stack and storage instructions (rows 0 to 6). -/
def opMapStack : List OpRow :=
  [⟨0, fun _ => .halt⟩,
   ⟨1, .push⟩,
   ⟨2, .rvalue⟩,
   ⟨3, .lvalue⟩,
   ⟨4, fun _ => .pop⟩,
   ⟨5, fun _ => .sto⟩,
   ⟨6, fun _ => .copy⟩]

/-- R64, the arithmetic instructions (rows 7 to 12). -/
def opMapArith : List OpRow :=
  [⟨7, fun _ => .add⟩,
   ⟨8, fun _ => .sub⟩,
   ⟨9, fun _ => .mpy⟩,
   ⟨10, fun _ => .div⟩,
   ⟨11, fun _ => .mod⟩,
   ⟨12, fun _ => .neg⟩]

/-- R64, the logical and comparison instructions (rows 13 to 21). -/
def opMapLogic : List OpRow :=
  [⟨13, fun _ => .not⟩,
   ⟨14, fun _ => .or⟩,
   ⟨15, fun _ => .and⟩,
   ⟨16, fun _ => .eq⟩,
   ⟨17, fun _ => .ne⟩,
   ⟨18, fun _ => .gt⟩,
   ⟨19, fun _ => .ge⟩,
   ⟨20, fun _ => .lt⟩,
   ⟨21, fun _ => .le⟩]

/-- R64, branches, ports and subroutines (rows 22 to 29). -/
def opMapControl : List OpRow :=
  [⟨22, fun _ => .label⟩,
   ⟨23, .goto⟩,
   ⟨24, .gofalse⟩,
   ⟨25, .gotrue⟩,
   ⟨26, fun _ => .print⟩,
   ⟨27, fun _ => .read⟩,
   ⟨28, .gosub⟩,
   ⟨29, fun _ => .ret⟩]

/-- R64, the bitwise and shift instructions (rows 30 to 35). -/
def opMapBits : List OpRow :=
  [⟨30, fun _ => .orb⟩,
   ⟨31, fun _ => .andb⟩,
   ⟨32, fun _ => .xorb⟩,
   ⟨33, fun _ => .shl⟩,
   ⟨34, fun _ => .shr⟩,
   ⟨35, fun _ => .sar⟩]

/-- `OPMAP`, the opcode map of R64 (numbers under decision D1). -/
def opMap : List OpRow := opMapStack ++ opMapArith ++ opMapLogic ++ opMapControl ++ opMapBits

/-- Why bits are no instruction. -/
inductive DecodeError where
  /-- The opcode is not in the opcode map (R66). -/
  | unrecognizedOpcode (opcode : Opcode)
  /-- Fewer than four bytes are left, so there is no whole word (R60, R195). -/
  | truncatedWord
  deriving DecidableEq, Repr

/-- Decoding under a given opcode map: the full 16-bit opcode selects the row, the operand plays no part in the
selection (R81). -/
def decodeWith (map : List OpRow) (w : Word) : Except DecodeError Instr :=
  match map.find? (fun r => r.opcode == opcodeField w) with
  | some r => .ok (r.build (operandField w))
  | none => .error (.unrecognizedOpcode (opcodeField w))

/-- The instruction a code word stands for, or its rejection by name (R61, R64, R66). -/
def decode (w : Word) : Except DecodeError Instr := decodeWith opMap w

/-- Four bytes of a program file, most significant first, as one word (R40, R195). -/
def wordOfBytes (b3 b2 b1 b0 : Byte) : Word := b3 ++ b2 ++ b1 ++ b0

/-- The four bytes of a word in a program file, most significant first (R40). -/
def bytesOfWord (w : Word) : List Byte :=
  [w.extractLsb' 24 8, w.extractLsb' 16 8, w.extractLsb' 8 8, w.extractLsb' 0 8]

/-- The instruction at the head of a program file, with the bytes after it. -/
def decodeBytes : List Byte → Except DecodeError (Instr × List Byte)
  | b3 :: b2 :: b1 :: b0 :: rest =>
    match decode (wordOfBytes b3 b2 b1 b0) with
    | .ok i => .ok (i, rest)
    | .error e => .error e
  | _ => .error .truncatedWord

/-- The decoder's reading of an instruction word as spec/opcode_table.json numbers its bits: the table's word is the
code word itself (R60), so bits above `nbits` are 0 and an instruction longer than one word does not exist. -/
def decodeTableWord (nbits w : Nat) : Option Instr :=
  if nbits ≤ 32 then (decode (BitVec.ofNat 32 (w % 2 ^ nbits))).toOption else none

/-! ## The encoder -/

/-- The opcode number of an instruction (R64, R65). -/
def opcodeNumber : Instr → Opcode
  | .halt => 0
  | .push _ => 1
  | .rvalue _ => 2
  | .lvalue _ => 3
  | .pop => 4
  | .sto => 5
  | .copy => 6
  | .add => 7
  | .sub => 8
  | .mpy => 9
  | .div => 10
  | .mod => 11
  | .neg => 12
  | .not => 13
  | .or => 14
  | .and => 15
  | .eq => 16
  | .ne => 17
  | .gt => 18
  | .ge => 19
  | .lt => 20
  | .le => 21
  | .label => 22
  | .goto _ => 23
  | .gofalse _ => 24
  | .gotrue _ => 25
  | .print => 26
  | .read => 27
  | .gosub _ => 28
  | .ret => 29
  | .orb => 30
  | .andb => 31
  | .xorb => 32
  | .shl => 33
  | .shr => 34
  | .sar => 35

/-- The operand field the encoder writes: the operand of an `OP16` instruction, the canonical 0 otherwise (R63). -/
def operandOf : Instr → Operand
  | .push n | .rvalue n | .lvalue n | .goto n | .gofalse n | .gotrue n | .gosub n => n
  | .halt | .pop | .sto | .copy | .add | .sub | .mpy | .div | .mod | .neg => 0
  | .not | .or | .and | .eq | .ne | .gt | .ge | .lt | .le => 0
  | .label | .print | .read | .ret => 0
  | .orb | .andb | .xorb | .shl | .shr | .sar => 0

/-- Whether the instruction uses its operand field: the format `OP16` against `OP0` (R60, R64). -/
def usesOperand : Instr → Bool
  | .push _ | .rvalue _ | .lvalue _ | .goto _ | .gofalse _ | .gotrue _ | .gosub _ => true
  | .halt | .pop | .sto | .copy | .add | .sub | .mpy | .div | .mod | .neg => false
  | .not | .or | .and | .eq | .ne | .gt | .ge | .lt | .le => false
  | .label | .print | .read | .ret => false
  | .orb | .andb | .xorb | .shl | .shr | .sar => false

/-- The word of an instruction: the opcode above the operand (R60). -/
def encode (i : Instr) : Word := opcodeNumber i ++ operandOf i

/-- The bytes of an instruction in a program file (R40). -/
def encodeBytes (i : Instr) : List Byte := bytesOfWord (encode i)

end Sys2Proof
end

