-- ==== Sys2Proof/Config.lean ====
section
/-! DEFINITION. The parameters of the machine at the values this hardware takes (spec/00_scope.md R5).
`OPMAP` is `Sys2Proof.opMap` of Decode.lean; `INPUT` is the field `input` of State (log entry 1). -/

namespace Sys2Proof.Config

/-- `CAP`, the capacity in words of code memory and of data memory (`DCAP = CAP`, R5, decision D3). -/
def cap : Nat := 65536

/-- `RAS_DEPTH`, the capacity of the return-address stack; `none` is unbounded (R5, R27, decision D14). -/
def rasDepth : Option Nat := none

/-- `DMEM_INIT`, what every word of data memory holds at reset (R5, R33, decision D10). -/
def dmemInit : Word := 0

/-- What a word of code memory above the loaded program holds (R33, R195, decision D11). -/
def codeFill : Word := 0

end Sys2Proof.Config
end

