-- ==== Sys2Proof/Machine/Memory.lean ====
section
/-! DEFINITION. A word-addressed memory as sorted data (spec/20_memory.md R40 to R45). -/

namespace Sys2Proof.Machine

/-- A memory: the words that differ from the fill word, by rising word address. The addressable unit of both memories
is the 32-bit word and no part of a word has an address (R40, R42), so a cell holds a word (log entry 4). -/
abbrev Memory := List (Nat × Word)

/-- The word at an address; an address that is not listed holds the fill word. -/
def Memory.read (fill : Word) : Memory → Nat → Word
  | [], _ => fill
  | (b, w) :: m, a => if a = b then w else Memory.read fill m a

/-- The memory after storing `v` at address `a`. Storing the fill word takes the entry out. -/
def Memory.write (fill : Word) : Memory → Nat → Word → Memory
  | [], a, v => if v = fill then [] else [(a, v)]
  | (b, w) :: m, a, v =>
    if a < b then (if v = fill then (b, w) :: m else (a, v) :: (b, w) :: m)
    else if a = b then (if v = fill then m else (a, v) :: m)
    else (b, w) :: Memory.write fill m a v

/-- The canonical form from address `lo` on: addresses strictly rising, inside the space of `cap` words (R43), and no
entry equal to the fill word. -/
def Memory.wfFrom (fill : Word) (lo : Nat) : Memory → Bool
  | [] => true
  | (a, v) :: m => lo ≤ a && a < Config.cap && v != fill && Memory.wfFrom fill (a + 1) m

/-- The canonical form of a memory. -/
def Memory.wf (fill : Word) (m : Memory) : Bool := Memory.wfFrom fill 0 m

end Sys2Proof.Machine
end

