-- ==== Sys2Proof/Machine/State.lean ====
section
/-! DEFINITION. The state of the machine (spec/10_state.md R34), its reset (R33), and the reasons a step can stop. -/

namespace Sys2Proof.Machine

/-- The `cause` status register: why the machine stopped (spec/60_exceptions.md R160). Its 4-bit code is `Cause.code`
of Machine/Flags.lean. -/
inductive Cause where
  /-- Running, or stopped by HALT (code 0). -/
  | none
  /-- A push would land at or below the high-water mark (code 1, R161). -/
  | stackCollision
  /-- The defensive second check of a push (code 2, R162). -/
  | stackExhausted
  /-- RET with an empty return-address stack (code 3, R163). -/
  | returnStackEmpty
  /-- The opcode is not in the opcode map (code 4, R164). -/
  | unrecognizedOpcode
  /-- DIV or MOD by zero (code 5, R165). -/
  | divideByZero
  /-- A fetch with `pc` outside code memory (code 6, R166). -/
  | pcOutOfRange
  /-- A store to an address outside data memory (code 7, R167). -/
  | dataAddressOutOfRange
  /-- GOSUB with a full return-address stack, in a build where it is finite (code 8, R168). -/
  | returnStackOverflow
  deriving DecidableEq, Repr

/-- Why a step has no next state. -/
inductive Fault where
  /-- Raised by `step` alone, when `run` is already 0: such a state is terminal and has no step (R7, R25).
  Safe: the hardware takes no cycle there either. -/
  | stopped
  deriving DecidableEq, Repr

/-- Why an instruction has no meaning. -/
inductive Refusal where
  /-- The instruction is not modelled yet. No arm of `exec` answers this. Safe: it only stops the model. -/
  | notModelled (mnemonic : String)
  deriving DecidableEq, Repr

/-- The whole state (R34), with the loaded code image and the available input beside it (log entry 1). -/
structure State where
  /-- The program counter, 0 to `CAP` (R23). -/
  pc : Pointer
  /-- The stack pointer; `CAP` is the empty-stack sentinel (R21). -/
  sp : Pointer
  /-- The stack high-water mark (R22). -/
  sl : BitVec 16
  /-- The run flag (R25). -/
  run : Bool
  /-- The cause status register (R26). -/
  cause : Cause
  /-- The info status register (R26). -/
  info : Word
  /-- The return-address stack, top at the end (R27, R8). -/
  rs : List Pointer
  /-- Data memory `D` (R29); an unlisted address holds `Config.dmemInit`. -/
  data : Memory
  /-- Code memory `C` (R28); an unlisted address holds `Config.codeFill`. -/
  code : Memory
  /-- The words emitted so far, `OUT` (R30, R133). -/
  out : List Word
  /-- The words of `INPUT` the environment has made available so far (R132). -/
  input : List Word
  /-- How many words of `INPUT` have been consumed (R30, R132). -/
  inpos : Nat
  deriving DecidableEq, Repr

/-- The state right after reset (R33, R190), with no program loaded and no input word available yet
(log entries 2 and 3). -/
def State.reset : State where
  pc := 0
  sp := 65536
  sl := 0
  run := true
  cause := .none
  info := 0
  rs := []
  data := []
  code := []
  out := []
  input := []
  inpos := 0

end Sys2Proof.Machine
end

