-- ==== Sys2Proof/Machine/Ops.lean ====
section
/-! DEFINITION. The shared operations: reads and writes of memory and registers, trap entry, the operand stack engine,
the ports (spec/20_memory.md R47 to R53, spec/60_exceptions.md R170, spec/45_io.md R132, R133). -/

namespace Sys2Proof.Machine

/-! ## One update per register -/

/-- `pc <- v`. -/
def State.setPc (s : State) (v : Pointer) : State := { s with pc := v }

/-- `sp <- v`. -/
def State.setSp (s : State) (v : Pointer) : State := { s with sp := v }

/-- `sl <- v`. -/
def State.setSl (s : State) (v : BitVec 16) : State := { s with sl := v }

/-- `RS <- v`. -/
def State.setRs (s : State) (v : List Pointer) : State := { s with rs := v }

/-- `run <- 0`, leaving `cause` and `info` as they are (R84). -/
def State.clearRun (s : State) : State := { s with run := false }

/-! ## Memory -/

/-- `CRead(a)`: the word of code memory at `a` (R28). -/
def readCode (s : State) (a : Nat) : Word := Memory.read Config.codeFill s.code a

/-- `DRead(a)`: the word of data memory at `a` (R29, R45). -/
def readData (s : State) (a : Nat) : Word := Memory.read Config.dmemInit s.data a

/-- `DWrite(a, v)` (R45). -/
def writeData (s : State) (a : Nat) (v : Word) : State :=
  { s with data := Memory.write Config.dmemInit s.data a v }

/-! ## Taking an exception -/

/-- `raise c(i)`: trap entry (R170). The machine stops with a cause code and an information word; nothing else
changes, and the effects made before it stay. There is no return from a trap (R173). -/
def State.raise (s : State) (c : Cause) (i : Word) : State := { s with run := false, cause := c, info := i }

/-- What part of an instruction ends in: it goes on from a state, or it has raised and ends in a stopped state. -/
abbrev Attempt := Except State State

/-- The end of an instruction: a trap is taken, it is no missing step (R170, log entry 5). -/
def finish : Attempt → Host.Outcome State Fault Refusal
  | .ok s => .next s
  | .error s => .next s

/-! ## The operand stack engine -/

/-- The candidate address `t = sp - 1` of a push (R47), as an integer. -/
def pushTarget (s : State) : Int := (s.sp.toNat : Int) - 1

/-- `Push(v)` (R47). Both checks are made on the candidate; a failed push leaves `sp` and `D` as they were (C7). -/
def push (v : Word) (s : State) : Attempt :=
  if pushTarget s ≤ (s.sl.toNat : Int) then .error (s.raise .stackCollision (wrap (pushTarget s)))
  else if (Config.cap : Int) ≤ pushTarget s then .error (s.raise .stackExhausted (wrap (pushTarget s)))
  else .ok ((writeData s (pushTarget s).toNat v).setSp (s.sp - 1))

/-- `Pop()` (R48): the value and the state after it. An empty stack supplies 0 and nothing moves. -/
def pop (s : State) : Word × State :=
  if s.sp.toNat < Config.cap then (readData s s.sp.toNat, s.setSp (s.sp + 1)) else (0, s)

/-- `RecordStore(a)`: `sl <- max(sl, a)` (R49). -/
def recordStore (a : Nat) (s : State) : State := s.setSl (BitVec.ofNat 16 (max s.sl.toNat a))

/-! ## The ports -/

/-- `In()` (R132): the next word of `INPUT` and the state that has consumed it, or nothing when no word is available. -/
def takeInput (s : State) : Option (Word × State) :=
  match s.input[s.inpos]? with
  | some v => some (v, { s with inpos := s.inpos + 1 })
  | none => none

/-- `Out(v)` (R133): the word is appended to `OUT`; the port never refuses. -/
def emit (v : Word) (s : State) : State := { s with out := s.out ++ [v] }

/-- The environment makes further words of `INPUT` available (R132). -/
def deliver (ws : List Word) (s : State) : State := { s with input := s.input ++ ws }

/-- The wait of READ (R131): the whole cycle waits, fetch included, so the increment of `pc` is taken back. -/
def waitForInput (s : State) : State := s.setPc (s.pc - 1)

/-! ## The common shapes of the instructions -/

/-- Pop one operand, push one result. -/
def unaryOp (f : Word → Word) (s : State) : Host.Outcome State Fault Refusal :=
  finish (push (f (pop s).1) (pop s).2)

/-- The operands of a two-operand instruction and the state after both pops: the right operand is popped first, the
left operand second (R100, C1). -/
def popTwo (s : State) : Word × Word × State :=
  ((pop (pop s).2).1, (pop s).1, (pop (pop s).2).2)

/-- `right <- Pop(); left <- Pop(); Push(f(left, right))` (R100). -/
def binaryOp (f : Word → Word → Word) (s : State) : Host.Outcome State Fault Refusal :=
  finish (push (f (popTwo s).1 (popTwo s).2.1) (popTwo s).2.2)

/-- A two-operand instruction that divides: a zero right operand raises `DivideByZero(left)` after both pops and
before the push (R104, R105). -/
def divideOp (f : Word → Word → Word) (s : State) : Host.Outcome State Fault Refusal :=
  if (popTwo s).2.1 = 0 then .next ((popTwo s).2.2.raise .divideByZero (popTwo s).1)
  else finish (push (f (popTwo s).1 (popTwo s).2.1) (popTwo s).2.2)

end Sys2Proof.Machine
end

