-- ==== Sys2Proof/Machine/Operands.lean ====
section
/-! DEFINITION. The operand forms: literal, data address, code address, and the address STO pops (spec/30_encoding.md
R62, spec/41_stack_and_storage.md R94). The operand field is never sign-extended, scaled, shifted or added to. -/

namespace Sys2Proof.Machine

/-- The literal of PUSH and LVALUE: `zext_32(operand)` (R62). -/
def literal (n : Operand) : Word := n.setWidth 32

/-- The absolute data word address of RVALUE (R62, R91). -/
def dataAddress (n : Operand) : Nat := n.toNat

/-- The absolute code word address of GOTO, GOFALSE, GOTRUE and GOSUB (R62). -/
def codeAddress (n : Operand) : Pointer := n.setWidth 17

/-- The effective address of STO: the popped word read as a signed integer, when it is a legal data address (R94). -/
def storeAddress (a : Word) : Option Nat :=
  if 0 ≤ a.toInt ∧ a.toInt < (Config.cap : Int) then some a.toInt.toNat else none

/-- A program-counter value as an information word (R160). -/
def pointerInfo (p : Pointer) : Word := p.setWidth 32

end Sys2Proof.Machine
end

