-- ==== Sys2Proof/Machine/Cycle.lean ====
section
/-! DEFINITION. The instruction cycle around the meanings (spec/40_cycle_and_halt.md R80 to R82). -/

namespace Sys2Proof.Machine

/-- `ir <- CRead(pc)` (R80). -/
def fetchWord (s : State) : Word := readCode s s.pc.toNat

/-- `pc <- pc + 1`, before decode and before the effect (R80). -/
def incrementPc (s : State) : State := s.setPc (s.pc + 1)

/-- `raise UnrecognizedOpcode(zext_32(opcode))` (R82). -/
def raiseUnrecognized (w : Word) (s : State) : State :=
  s.raise .unrecognizedOpcode ((opcodeField w).setWidth 32)

/-- One instruction cycle, given the meanings of the instructions (R80). A stopped machine has none (R7, R25). The
check of `pc` precedes everything; the dispatch runs with `pc` already incremented. -/
def cycle (dispatch : Instr → State → Host.Outcome State Fault Refusal) (s : State) :
    Host.Outcome State Fault Refusal :=
  if s.run = false then .fault .stopped
  else if Config.cap ≤ s.pc.toNat then .next (s.raise .pcOutOfRange (pointerInfo s.pc))
  else
    match decode (fetchWord s) with
    | .ok i => dispatch i (incrementPc s)
    | .error _ => .next (raiseUnrecognized (fetchWord s) (incrementPc s))

/-- `w` placed in code memory where the next cycle fetches: at `pc`, when that is a code address. -/
def placeWord (s : State) (w : Word) : State :=
  if s.pc.toNat < Config.cap then { s with code := Memory.write Config.codeFill s.code s.pc.toNat w } else s

end Sys2Proof.Machine
end

