-- ==== Sys2Proof/Machine/Flags.lean ====
section
/-! DEFINITION. The machine has no condition flags (spec/10_state.md R25): comparisons and logical operations give a
truth word (spec/43_logic_and_compare.md). The status the host sees is `run`, `cause` and `info` (R26, R191). -/

namespace Sys2Proof.Machine

/-- A word is true when it is not zero (spec/43_logic_and_compare.md, spec/44_branch.md R122). -/
def isNonzero (v : Word) : Bool := v != 0

/-- A truth value as a word: exactly 1 or 0. -/
def truthWord (b : Bool) : Word := if b then 1 else 0

/-- The 4-bit code of a cause (R160). -/
def Cause.code : Cause → BitVec 4
  | .none => 0
  | .stackCollision => 1
  | .stackExhausted => 2
  | .returnStackEmpty => 3
  | .unrecognizedOpcode => 4
  | .divideByZero => 5
  | .pcOutOfRange => 6
  | .dataAddressOutOfRange => 7
  | .returnStackOverflow => 8

/-- The status outputs of the block: `run` (1 bit), `cause` (4 bits), `info` (32 bits) (R191). -/
def statusPort (s : State) : BitVec 1 × BitVec 4 × Word := (BitVec.ofBool s.run, s.cause.code, s.info)

end Sys2Proof.Machine
end

