-- ==== Sys2Proof/Machine/Alu.lean ====
section
/-! DEFINITION. What the execution unit computes from words: arithmetic (spec/42_arithmetic.md), truth values
(spec/43_logic_and_compare.md), bit patterns (spec/47_bitwise_and_shift.md). Arithmetic is exact on the signed values
and narrowed once by `wrap` (R107). -/

namespace Sys2Proof.Machine

/-- R101. -/
def aluAdd (left right : Word) : Word := wrap (left.toInt + right.toInt)

/-- R102. -/
def aluSub (left right : Word) : Word := wrap (left.toInt - right.toInt)

/-- R103. -/
def aluMpy (left right : Word) : Word := wrap (left.toInt * right.toInt)

/-- `trunc(s(left) / s(right))`, rounded toward zero (R104). -/
def quotient (left right : Word) : Int := left.toInt.tdiv right.toInt

/-- R104, for a divisor that is not zero. -/
def aluDiv (left right : Word) : Word := wrap (quotient left right)

/-- R105, for a divisor that is not zero. -/
def aluMod (left right : Word) : Word := wrap (left.toInt - quotient left right * right.toInt)

/-- R106. -/
def aluNeg (v : Word) : Word := wrap (-v.toInt)

/-- R110: every bit inverted. -/
def aluNot (v : Word) : Word := v ^^^ 0xFFFFFFFF#32

/-- R111: 0 only if both are zero. -/
def aluOr (b a : Word) : Word := truthWord (!(a == 0 && b == 0))

/-- R112: 1 only if both are nonzero. -/
def aluAnd (b a : Word) : Word := truthWord (a != 0 && b != 0)

/-- R113. -/
def aluEq (left right : Word) : Word := truthWord (left == right)

/-- R114. -/
def aluNe (left right : Word) : Word := truthWord (left != right)

/-- R115: signed. -/
def aluGt (left right : Word) : Word := truthWord (left.toInt > right.toInt)

/-- R116: signed. -/
def aluGe (left right : Word) : Word := truthWord (left.toInt ≥ right.toInt)

/-- R117: signed. -/
def aluLt (left right : Word) : Word := truthWord (left.toInt < right.toInt)

/-- R118: signed. -/
def aluLe (left right : Word) : Word := truthWord (left.toInt ≤ right.toInt)

/-- R150. -/
def aluOrb (b a : Word) : Word := a ||| b

/-- R151. -/
def aluAndb (b a : Word) : Word := a &&& b

/-- R152. -/
def aluXorb (b a : Word) : Word := a ^^^ b

/-- R153: `v[30:0] ++ 0b0`. -/
def aluShl (v : Word) : Word := v.extractLsb' 0 31 ++ 0#1

/-- R154: `0b0 ++ v[31:1]`. -/
def aluShr (v : Word) : Word := 0#1 ++ v.extractLsb' 1 31

/-- R155: `v[31] ++ v[31:1]`. -/
def aluSar (v : Word) : Word := v.extractLsb' 31 1 ++ v.extractLsb' 1 31

end Sys2Proof.Machine
end

