-- ==== Sys2Proof/Machine/Arithmetic.lean ====
section
/-! DEFINITION. The arithmetic instructions (spec/42_arithmetic.md). -/

namespace Sys2Proof.Machine

/-- ADD (R101). -/
def execAdd (s : State) : Host.Outcome State Fault Refusal := binaryOp aluAdd s

/-- SUB (R102). -/
def execSub (s : State) : Host.Outcome State Fault Refusal := binaryOp aluSub s

/-- MPY (R103). -/
def execMpy (s : State) : Host.Outcome State Fault Refusal := binaryOp aluMpy s

/-- DIV (R104). -/
def execDiv (s : State) : Host.Outcome State Fault Refusal := divideOp aluDiv s

/-- MOD (R105). -/
def execMod (s : State) : Host.Outcome State Fault Refusal := divideOp aluMod s

/-- NEG (R106). -/
def execNeg (s : State) : Host.Outcome State Fault Refusal := unaryOp aluNeg s

end Sys2Proof.Machine
end

