-- ==== Sys2Proof/Machine/BitwiseShift.lean ====
section
/-! DEFINITION. The bitwise and shift instructions (spec/47_bitwise_and_shift.md). -/

namespace Sys2Proof.Machine

/-- ORB (R150). -/
def execOrb (s : State) : Host.Outcome State Fault Refusal := binaryOp aluOrb s

/-- ANDB (R151). -/
def execAndb (s : State) : Host.Outcome State Fault Refusal := binaryOp aluAndb s

/-- XORB (R152). -/
def execXorb (s : State) : Host.Outcome State Fault Refusal := binaryOp aluXorb s

/-- SHL (R153). -/
def execShl (s : State) : Host.Outcome State Fault Refusal := unaryOp aluShl s

/-- SHR (R154). -/
def execShr (s : State) : Host.Outcome State Fault Refusal := unaryOp aluShr s

/-- SAR (R155). -/
def execSar (s : State) : Host.Outcome State Fault Refusal := unaryOp aluSar s

end Sys2Proof.Machine
end

