-- ==== Sys2Proof/Machine/Branch.lean ====
section
/-! DEFINITION. LABEL and the branch instructions (spec/44_branch.md). -/

namespace Sys2Proof.Machine

/-- LABEL (R120). -/
def execLabel (s : State) : Host.Outcome State Fault Refusal := .next s

/-- GOTO n (R121). -/
def execGoto (n : Operand) (s : State) : Host.Outcome State Fault Refusal := .next (s.setPc (codeAddress n))

/-- Pop the condition, then branch to `n` if it is as wanted, else fall through (R122, R123). -/
def branchOn (taken : Word → Bool) (n : Operand) (s : State) : Host.Outcome State Fault Refusal :=
  if taken (pop s).1 then .next ((pop s).2.setPc (codeAddress n)) else .next (pop s).2

/-- GOFALSE n (R122). -/
def execGofalse (n : Operand) (s : State) : Host.Outcome State Fault Refusal := branchOn (fun v => !isNonzero v) n s

/-- GOTRUE n (R123). -/
def execGotrue (n : Operand) (s : State) : Host.Outcome State Fault Refusal := branchOn isNonzero n s

end Sys2Proof.Machine
end

