-- ==== Sys2Proof/Machine/Halt.lean ====
section
/-! DEFINITION. HALT (spec/40_cycle_and_halt.md). -/

namespace Sys2Proof.Machine

/-- HALT (R84). -/
def execHalt (s : State) : Host.Outcome State Fault Refusal := .next s.clearRun

end Sys2Proof.Machine
end

