-- ==== Sys2Proof/Machine/InputOutput.lean ====
section
/-! DEFINITION. The input and output instructions (spec/45_io.md). -/

namespace Sys2Proof.Machine

/-- PRINT (R130). -/
def execPrint (s : State) : Host.Outcome State Fault Refusal := .next (emit (pop s).1 (pop s).2)

/-- READ (R131): the word is taken before the checks of the push; with no word available the whole cycle waits
(log entry 6). -/
def execRead (s : State) : Host.Outcome State Fault Refusal :=
  match takeInput s with
  | some (v, s') => finish (push v s')
  | none => .next (waitForInput s)

end Sys2Proof.Machine
end

