-- ==== Sys2Proof/Machine/LogicCompare.lean ====
section
/-! DEFINITION. The logical and comparison instructions (spec/43_logic_and_compare.md). -/

namespace Sys2Proof.Machine

/-- NOT (R110). -/
def execNot (s : State) : Host.Outcome State Fault Refusal := unaryOp aluNot s

/-- OR (R111). -/
def execOr (s : State) : Host.Outcome State Fault Refusal := binaryOp aluOr s

/-- AND (R112). -/
def execAnd (s : State) : Host.Outcome State Fault Refusal := binaryOp aluAnd s

/-- EQ (R113). -/
def execEq (s : State) : Host.Outcome State Fault Refusal := binaryOp aluEq s

/-- NE (R114). -/
def execNe (s : State) : Host.Outcome State Fault Refusal := binaryOp aluNe s

/-- GT (R115). -/
def execGt (s : State) : Host.Outcome State Fault Refusal := binaryOp aluGt s

/-- GE (R116). -/
def execGe (s : State) : Host.Outcome State Fault Refusal := binaryOp aluGe s

/-- LT (R117). -/
def execLt (s : State) : Host.Outcome State Fault Refusal := binaryOp aluLt s

/-- LE (R118). -/
def execLe (s : State) : Host.Outcome State Fault Refusal := binaryOp aluLe s

end Sys2Proof.Machine
end

