-- ==== Sys2Proof/Machine/StackStorage.lean ====
section
/-! DEFINITION. The stack and storage instructions (spec/41_stack_and_storage.md). -/

namespace Sys2Proof.Machine

/-- PUSH n (R90). -/
def execPush (n : Operand) (s : State) : Host.Outcome State Fault Refusal := finish (push (literal n) s)

/-- RVALUE n in a build whose data memory holds `cap` words (R91): an address outside it raises before anything else
(R45). The read is made before the push (R52). -/
def rvalueWithin (cap : Nat) (n : Operand) (s : State) : Host.Outcome State Fault Refusal :=
  if cap ≤ dataAddress n then .next (s.raise .dataAddressOutOfRange (literal n))
  else finish (push (readData s (dataAddress n)) s)

/-- RVALUE n (R91). -/
def execRvalue (n : Operand) (s : State) : Host.Outcome State Fault Refusal := rvalueWithin Config.cap n s

/-- LVALUE n (R92). -/
def execLvalue (n : Operand) (s : State) : Host.Outcome State Fault Refusal := finish (push (literal n) s)

/-- POP (R93). -/
def execPop (s : State) : Host.Outcome State Fault Refusal := .next (pop s).2

/-- STO (R94): the value is popped first, the address second. -/
def execSto (s : State) : Host.Outcome State Fault Refusal :=
  match storeAddress (popTwo s).1 with
  | none => .next ((popTwo s).2.2.raise .dataAddressOutOfRange (popTwo s).1)
  | some a => .next (recordStore a (writeData (popTwo s).2.2 a (popTwo s).2.1))

/-- COPY (R95): one pop, two pushes; a first push stays when the second raises. -/
def execCopy (s : State) : Host.Outcome State Fault Refusal :=
  finish ((push (pop s).1 (pop s).2).bind (push (pop s).1))

end Sys2Proof.Machine
end

