-- ==== Sys2Proof/Machine/Subroutine.lean ====
section
/-! DEFINITION. The subroutine instructions (spec/46_subroutine.md). -/

namespace Sys2Proof.Machine

/-- Whether a return-address stack of the given capacity is full; an unbounded one never is (R27, R140). -/
def returnStackFull (depth : Option Nat) (s : State) : Bool :=
  match depth with
  | none => false
  | some d => d ≤ s.rs.length

/-- GOSUB n in a build whose return-address stack has the given capacity (R140). -/
def gosubWithin (depth : Option Nat) (n : Operand) (s : State) : Host.Outcome State Fault Refusal :=
  if returnStackFull depth s then .next (s.raise .returnStackOverflow (pointerInfo s.pc))
  else .next ((s.setRs (s.rs ++ [s.pc])).setPc (codeAddress n))

/-- GOSUB n (R140). -/
def execGosub (n : Operand) (s : State) : Host.Outcome State Fault Refusal := gosubWithin Config.rasDepth n s

/-- RET (R141). -/
def execRet (s : State) : Host.Outcome State Fault Refusal :=
  match s.rs.getLast? with
  | none => .next (s.raise .returnStackEmpty (pointerInfo s.pc))
  | some a => .next ((s.setRs s.rs.dropLast).setPc a)

end Sys2Proof.Machine
end

