-- ==== Sys2Proof/Machine/Dispatch.lean ====
section
/-! DEFINITION. The dispatch multiplexer: one meaning per instruction (spec/40_cycle_and_halt.md R81). -/

namespace Sys2Proof.Machine

/-- The execute phase of an instruction, with `pc` already incremented (R80, R81). -/
def exec (i : Instr) (s : State) : Host.Outcome State Fault Refusal :=
  match i with
  -- Halt.lean
  | .halt => Sys2Proof.Machine.execHalt s
  -- StackStorage.lean
  | .push n => Sys2Proof.Machine.execPush n s
  | .rvalue n => Sys2Proof.Machine.execRvalue n s
  | .lvalue n => Sys2Proof.Machine.execLvalue n s
  | .pop => Sys2Proof.Machine.execPop s
  | .sto => Sys2Proof.Machine.execSto s
  | .copy => Sys2Proof.Machine.execCopy s
  -- Arithmetic.lean
  | .add => Sys2Proof.Machine.execAdd s
  | .sub => Sys2Proof.Machine.execSub s
  | .mpy => Sys2Proof.Machine.execMpy s
  | .div => Sys2Proof.Machine.execDiv s
  | .mod => Sys2Proof.Machine.execMod s
  | .neg => Sys2Proof.Machine.execNeg s
  -- LogicCompare.lean
  | .not => Sys2Proof.Machine.execNot s
  | .or => Sys2Proof.Machine.execOr s
  | .and => Sys2Proof.Machine.execAnd s
  | .eq => Sys2Proof.Machine.execEq s
  | .ne => Sys2Proof.Machine.execNe s
  | .gt => Sys2Proof.Machine.execGt s
  | .ge => Sys2Proof.Machine.execGe s
  | .lt => Sys2Proof.Machine.execLt s
  | .le => Sys2Proof.Machine.execLe s
  -- Branch.lean
  | .label => Sys2Proof.Machine.execLabel s
  | .goto n => Sys2Proof.Machine.execGoto n s
  | .gofalse n => Sys2Proof.Machine.execGofalse n s
  | .gotrue n => Sys2Proof.Machine.execGotrue n s
  -- InputOutput.lean
  | .print => Sys2Proof.Machine.execPrint s
  | .read => Sys2Proof.Machine.execRead s
  -- Subroutine.lean
  | .gosub n => Sys2Proof.Machine.execGosub n s
  | .ret => Sys2Proof.Machine.execRet s
  -- BitwiseShift.lean
  | .orb => Sys2Proof.Machine.execOrb s
  | .andb => Sys2Proof.Machine.execAndb s
  | .xorb => Sys2Proof.Machine.execXorb s
  | .shl => Sys2Proof.Machine.execShl s
  | .shr => Sys2Proof.Machine.execShr s
  | .sar => Sys2Proof.Machine.execSar s

end Sys2Proof.Machine
end

