-- ==== Sys2Proof/Machine/Step.lean ====
section
/-! DEFINITION. One step of the machine (spec/00_scope.md R7, spec/40_cycle_and_halt.md R80). -/

namespace Sys2Proof.Machine

/-- One step: one whole instruction cycle. -/
def step (s : State) : Host.Outcome State Fault Refusal := cycle exec s

/-- `s` with the instruction whose bits are `w`, as spec/opcode_table.json numbers them, stored where the next step
fetches (log entry 3). -/
def State.withFetchWord (s : State) (nbits w : Nat) : State := placeWord s (BitVec.ofNat 32 (w % 2 ^ nbits))

end Sys2Proof.Machine
end

