-- ==== Sys2Proof/Machine/Loader.lean ====
section
/-! DEFINITION. What stands before a run: the loader's contract (spec/70_reset_and_hazards.md R195) and the release of
reset (R190). The loader acts before reset is released and is no part of a step (R180). -/

namespace Sys2Proof.Machine

/-- A load-time error: reset is never released, and there is no cause code for it (R180). -/
inductive LoadError where
  /-- The file ends inside a word (R195). -/
  | truncatedWord
  /-- The file holds more than `CAP` words (R195, decision D11). -/
  | tooLong
  deriving DecidableEq, Repr

/-- The words of a program file, four bytes each, most significant byte first (R195). -/
def fileWords : List Byte → Except LoadError (List Word)
  | [] => .ok []
  | b3 :: b2 :: b1 :: b0 :: rest =>
    match fileWords rest with
    | .ok ws => .ok (wordOfBytes b3 b2 b1 b0 :: ws)
    | .error e => .error e
  | _ => .error .truncatedWord

/-- The memory that holds the given words contiguously from address `a` on, and the fill word elsewhere (R195). -/
def imageFrom (a : Nat) : List Word → Memory
  | [] => []
  | w :: ws => if w = Config.codeFill then imageFrom (a + 1) ws else (a, w) :: imageFrom (a + 1) ws

/-- The code memory a program file leaves, or the load-time error (R195). Opcodes are not looked at. -/
def loadFile (file : List Byte) : Except LoadError Memory :=
  match fileWords file with
  | .error e => .error e
  | .ok ws => if Config.cap < ws.length then .error .tooLong else .ok (imageFrom 0 ws)

/-- The state at the release of reset, for a loaded code memory and the input words available at once (R190). -/
def State.start (code : Memory) (input : List Word) : State := { State.reset with code := code, input := input }

end Sys2Proof.Machine
end

