-- ==== Sys2Proof/Safety.lean ====
section
/-! DEFINITION. The terms statements are made in: when a push fits, what a push leaves, the invariant of the reachable
states (spec/10_state.md R32), which instruction touches what (R24, spec/20_memory.md R52), which causes it can raise
(spec/60_exceptions.md R160), and the outcomes of a cycle (spec/00_scope.md R7). Nothing here is part of a step. -/

namespace Sys2Proof.Machine

/-! ## The operand stack -/

/-- A push is carried out: `sl < sp - 1 < CAP` (R47). -/
abbrev CanPush (s : State) : Prop := s.sl.toNat + 1 < s.sp.toNat ∧ s.sp.toNat ≤ Config.cap

/-- `t` is `s` with the word `v` pushed: one cell lower, that cell written, every other word of data memory reading as
before, every other register as before. -/
structure Pushed (v : Word) (s t : State) : Prop where
  sp_eq : t.sp.toNat + 1 = s.sp.toNat
  top_eq : readData t t.sp.toNat = v
  other_eq : ∀ a, a ≠ t.sp.toNat → readData t a = readData s a
  frame : t = { s with sp := t.sp, data := t.data }

/-- Data memory is in canonical form. -/
abbrev DataWf (s : State) : Prop := Memory.wf Config.dmemInit s.data = true

/-! ## Invariants -/

/-- What holds in every state reachable from reset, between instruction cycles (R32 (a), (c), (e), (g); (b) is carried
by the width of `sl`), with the canonical form of the memories. -/
structure Inv (s : State) : Prop where
  sp_pos : 1 ≤ s.sp.toNat
  sp_le : s.sp.toNat ≤ Config.cap
  pc_le : s.pc.toNat ≤ Config.cap
  rs_range : ∀ p ∈ s.rs, 1 ≤ p.toNat ∧ p.toNat ≤ Config.cap
  stopped_of_cause : s.cause ≠ .none → s.run = false
  info_zero : s.cause = .none → s.info = 0
  inpos_le : s.inpos ≤ s.input.length
  data_wf : Memory.wf Config.dmemInit s.data = true
  code_wf : Memory.wf Config.codeFill s.code = true

/-- The operand stack lies above general storage (R32 (f)). -/
abbrev StackAboveStorage (s : State) : Prop := s.sp.toNat = Config.cap ∨ s.sl.toNat < s.sp.toNat

/-! ## The next instruction -/

/-- The machine runs and the word at `pc` decodes to `i`. -/
abbrev Runs (i : Instr) (s : State) : Prop :=
  s.run = true ∧ s.pc.toNat < Config.cap ∧ decode (fetchWord s) = .ok i

/-- The machine stands before a READ with no input word available (R131, R132). -/
abbrev Waits (s : State) : Prop := Runs .read s ∧ s.input.length ≤ s.inpos

/-! ## The outcomes of a cycle -/

/-- R7's outcomes of a step, and the terminal states that have none. -/
inductive CycleOutcome where
  | next (t : State)
  | halted (t : State)
  | faulted (c : Cause) (info : Word) (t : State)
  | blocked
  | terminal
  deriving DecidableEq, Repr

/-- Whether the machine stands before a READ with no input word available, as a check. -/
def waitsCheck (s : State) : Bool :=
  s.run && decide (s.pc.toNat < Config.cap) && (decode (fetchWord s)).toOption == some .read
    && decide (s.input.length ≤ s.inpos)

/-- The outcome of one step in R7's terms. -/
def cycleOutcome (s : State) : CycleOutcome :=
  match step s with
  | .next t =>
    if waitsCheck s then .blocked
    else if t.run then .next t
    else if t.cause = .none then .halted t
    else .faulted t.cause t.info t
  | .fault _ => .terminal
  | .refused _ => .terminal

/-- Change the next state of an outcome, if there is one. -/
def mapNext (f : State → State) : Host.Outcome State Fault Refusal → Host.Outcome State Fault Refusal
  | .next t => .next (f t)
  | .fault r => .fault r
  | .refused r => .refused r

/-! ## What an instruction touches -/

/-- The state in which an instruction makes its (first) push, after its pops or its input word; nothing when it makes
none (R52). -/
def stateAtPush (i : Instr) (s : State) : Option State :=
  match i with
  | .push _ | .lvalue _ | .rvalue _ => some s
  | .copy | .neg | .not | .shl | .shr | .sar => some (pop s).2
  | .add | .sub | .mpy | .or | .and | .eq | .ne | .gt | .ge | .lt | .le | .orb | .andb | .xorb =>
    some (popTwo s).2.2
  | .div | .mod => if (popTwo s).2.1 = 0 then none else some (popTwo s).2.2
  | .read => (takeInput s).map Prod.snd
  | .halt | .pop | .sto | .label | .goto _ | .gofalse _ | .gotrue _ | .print | .gosub _ | .ret => none

/-- The cell of a push made in the given state, if there is one. -/
def pushCell : Option State → List Nat
  | some s => [(pushTarget s).toNat]
  | none => []

/-- The data addresses an instruction may store to in a state (R52): the cell of its push, both cells of COPY's pushes,
the address STO pops, and none for the instructions that store nothing. -/
def storedAddresses (i : Instr) (s : State) : List Nat :=
  if i = .sto then (storeAddress (popTwo s).1).toList
  else if i = .copy then [(pushTarget (pop s).2).toNat, (pushTarget (pop s).2 - 1).toNat]
  else pushCell (stateAtPush i s)

/-- The column `pc` of R24: the instructions whose execute phase may write `pc`. -/
def writesPc : Instr → Bool
  | .goto _ | .gofalse _ | .gotrue _ | .gosub _ | .ret => true
  | .halt | .push _ | .rvalue _ | .lvalue _ | .pop | .sto | .copy => false
  | .add | .sub | .mpy | .div | .mod | .neg => false
  | .not | .or | .and | .eq | .ne | .gt | .ge | .lt | .le => false
  | .label | .print | .read | .orb | .andb | .xorb | .shl | .shr | .sar => false

/-- The column `sp` of R24: the instructions that never touch `sp`. -/
def leavesSp : Instr → Bool
  | .halt | .label | .goto _ | .gosub _ | .ret => true
  | .push _ | .rvalue _ | .lvalue _ | .pop | .sto | .copy => false
  | .add | .sub | .mpy | .div | .mod | .neg => false
  | .not | .or | .and | .eq | .ne | .gt | .ge | .lt | .le => false
  | .gofalse _ | .gotrue _ | .print | .read | .orb | .andb | .xorb | .shl | .shr | .sar => false

/-- The column `D` of R24: the instructions that write no data memory. -/
def leavesData : Instr → Bool
  | .halt | .pop | .label | .goto _ | .gofalse _ | .gotrue _ | .print | .gosub _ | .ret => true
  | .push _ | .rvalue _ | .lvalue _ | .sto | .copy => false
  | .add | .sub | .mpy | .div | .mod | .neg => false
  | .not | .or | .and | .eq | .ne | .gt | .ge | .lt | .le => false
  | .read | .orb | .andb | .xorb | .shl | .shr | .sar => false

/-- The causes an instruction can raise in this hardware (R160, with `CAP` = 65536 and an unbounded `RS`). -/
def mayRaise : Instr → List Cause
  | .halt | .label | .pop | .goto _ | .gofalse _ | .gotrue _ | .print | .gosub _ => []
  | .ret => [.returnStackEmpty]
  | .sto => [.dataAddressOutOfRange]
  | .div | .mod => [.divideByZero, .stackCollision, .stackExhausted]
  | .push _ | .rvalue _ | .lvalue _ | .copy => [.stackCollision, .stackExhausted]
  | .add | .sub | .mpy | .neg => [.stackCollision, .stackExhausted]
  | .not | .or | .and | .eq | .ne | .gt | .ge | .lt | .le => [.stackCollision, .stackExhausted]
  | .read | .orb | .andb | .xorb | .shl | .shr | .sar => [.stackCollision, .stackExhausted]

end Sys2Proof.Machine
end

