-- ==== Sys2Proof/WellFormed.lean ====
section
/-! DEFINITION. Well-formed instructions: an address operand is an address of its space (spec/20_memory.md R41, R45).
That an operand fits its 16-bit field (R60) is carried by the type `Operand`. With `CAP` = 65536 every instruction
is well formed (Laws/WellFormed.lean); the check distinguishes instructions only in a build with a smaller `CAP`. -/

namespace Sys2Proof

/-- The checks for a build whose two memories hold `cap` words: the operand of RVALUE is a legal data address
(R45) and the target of a branch or a call is a legal code address (R41). -/
def Instr.wellFormedWithin (cap : Nat) : Instr → Bool
  | .rvalue n => n.toNat < cap
  | .goto n => n.toNat < cap
  | .gofalse n => n.toNat < cap
  | .gotrue n => n.toNat < cap
  | .gosub n => n.toNat < cap
  | .halt | .push _ | .lvalue _ | .pop | .sto | .copy => true
  | .add | .sub | .mpy | .div | .mod | .neg => true
  | .not | .or | .and | .eq | .ne | .gt | .ge | .lt | .le => true
  | .label | .print | .read | .ret => true
  | .orb | .andb | .xorb | .shl | .shr | .sar => true

/-- Well formed in this hardware. -/
def Instr.wellFormed (i : Instr) : Bool := i.wellFormedWithin Config.cap

end Sys2Proof
end

