-- ==== Sys2Proof/Certificates/Slice0/Obligations.lean ====
section
/-! DEFINITION. The statements for the provers. Every docstring names the rules of spec/ it formalises, and the
decision D<n> of spec/92_eei_decisions.md or the log entry it rests on, where it rests on one. -/

open Sys2Proof Sys2Proof.Machine

/-! ## Encoding -/

/-- R61: the opcode is `w >> 16` and the operand `w & 0xFFFF`, both unsigned; with R61's two examples. -/
def Obligations.FieldsAreTheTwoHalvesOfTheWord : Prop :=
  (∀ w : Word, (opcodeField w).toNat = (w >>> 16).toNat ∧ (operandField w).toNat = (w &&& 0xFFFF#32).toNat) ∧
  (opcodeField 0x0001002A#32).toNat = 1 ∧ (operandField 0x0001002A#32).toNat = 42 ∧
  (opcodeField 0xFFFF0000#32).toNat = 65535 ∧ (operandField 0xFFFF0000#32).toNat = 0

/-- Words written out from R64 and spec/95_test_vectors.md 2.1 decode to their instructions (numbers under D1; SAR = 35
is the source's). -/
def Obligations.WordsOfTheSpecDecode : Prop :=
  decode 0x00000007#32 = .ok .halt ∧ decode 0x0001002A#32 = .ok (.push 42) ∧
  decode 0x0002FFFF#32 = .ok (.rvalue 65535) ∧ decode 0x00080000#32 = .ok .sub ∧
  decode 0x00110000#32 = .ok .ne ∧ decode 0x0017FFFF#32 = .ok (.goto 65535) ∧
  decode 0x001B0000#32 = .ok .read ∧ decode 0x001C0004#32 = .ok (.gosub 4) ∧
  decode 0x0023FFFF#32 = .ok .sar ∧
  decode 0x00240000#32 = .error (.unrecognizedOpcode 36) ∧
  decode 0x80000000#32 = .error (.unrecognizedOpcode 32768)

/-- Decoding inverts encoding, for the word and for the four big-endian bytes of a program file: the opcode's high byte
first, the operand's low byte last (R60, R64, R40; numbers under D1, byte order under D11). -/
def Obligations.DecodeInvertsEncode : Prop :=
  ∀ i : Instr, i.wellFormed = true →
    decode (encode i) = .ok i ∧
    (encodeBytes i).map (fun b => b.toNat) =
      [(opcodeNumber i).toNat / 256, (opcodeNumber i).toNat % 256, (operandOf i).toNat / 256, (operandOf i).toNat % 256] ∧
    ∀ rest : List Byte, decodeBytes (encodeBytes i ++ rest) = .ok (i, rest)

/-- A word that decodes is the encoding of what it decodes to, up to the operand field of an instruction that ignores
it (R63, R64, R65; numbers under D1). -/
def Obligations.DecodedWordIsAnEncoding : Prop :=
  ∀ (w : Word) (i : Instr), decode w = .ok i →
    opcodeField w = opcodeNumber i ∧ (usesOperand i = true → encode i = w)

/-- Exactly the opcodes 0 to 35 are recognized; every other word is rejected with its opcode (R64, R66; D1). -/
def Obligations.RecognizedOpcodesAreBelow36 : Prop :=
  ∀ w : Word,
    ((opcodeField w).toNat < 36 → ∃ i, decode w = .ok i) ∧
    (36 ≤ (opcodeField w).toNat → decode w = .error (.unrecognizedOpcode (opcodeField w)))

/-- An instruction that takes no operand is the same whatever its operand field holds (R63; D18). -/
def Obligations.IgnoredOperandDoesNotMatter : Prop :=
  ∀ (w : Word) (i : Instr) (n : Operand), decode w = .ok i → usesOperand i = false →
    decode (opcodeField w ++ n) = .ok i

/-! ## Loading and reset -/

/-- Word `i` of a program file goes to `C[i]` and every other word of code memory is the fill word; the image is in
canonical form. The first byte of each four is the most significant (R40, R195; byte order and fill under D11). -/
def Obligations.LoaderPlacesWordsFromAddressZero : Prop :=
  (∀ ws : List Word, ws.length ≤ Config.cap →
    ∃ m, loadFile (ws.flatMap bytesOfWord) = .ok m ∧ Memory.wf Config.codeFill m = true ∧
      ∀ a, Memory.read Config.codeFill m a = ws.getD a 0) ∧
  (∀ b3 b2 b1 b0 : Byte,
    bytesOfWord (wordOfBytes b3 b2 b1 b0) = [b3, b2, b1, b0] ∧
    (wordOfBytes b3 b2 b1 b0).toNat = b3.toNat * 2 ^ 24 + b2.toNat * 2 ^ 16 + b1.toNat * 2 ^ 8 + b0.toNat)

/-- A file that ends inside a word, or holds more than `CAP` words, is a load-time error (R195; the second under D11).
That a file which does both is reported as truncated is the model's choice (log entry 12). -/
def Obligations.LoaderRejectsBadFiles : Prop :=
  ∀ file : List Byte,
    (file.length % 4 ≠ 0 → loadFile file = .error .truncatedWord) ∧
    (file.length % 4 = 0 → 4 * Config.cap < file.length → loadFile file = .error .tooLong)

/-- The reset values of R33 (under D9, D10, D12). That every code word reads 0 is the model's choice, not R33's:
State.reset holds no program, and the words of an empty program are all fill (log entry 3, D11). -/
def Obligations.ResetValues : Prop :=
  State.reset.pc.toNat = 0 ∧ State.reset.sp.toNat = 65536 ∧ State.reset.sl.toNat = 0 ∧ State.reset.run = true ∧
  State.reset.cause.code = 0 ∧ State.reset.info = 0 ∧ State.reset.rs = [] ∧ State.reset.out = [] ∧
  State.reset.inpos = 0 ∧ (∀ a, readData State.reset a = 0) ∧ (∀ a, readCode State.reset a = 0)

/-- The invariant holds at the release of reset, whatever canonical program is loaded and whatever input is available
(R32, R190). -/
def Obligations.ResetSatisfiesTheInvariant : Prop :=
  Inv State.reset ∧ StackAboveStorage State.reset ∧
  ∀ (code : Memory) (input : List Word), Memory.wf Config.codeFill code = true →
    Inv (State.start code input) ∧ StackAboveStorage (State.start code input)

/-! ## Memory and the operand stack engine -/

/-- The canonical form is one form: two canonical memories that read the same everywhere are the same data
(the model's memory, log entry 4; R42). -/
def Obligations.CanonicalMemoriesWithEqualReadsAreEqual : Prop :=
  ∀ (fill : Word) (m m' : Memory), Memory.wf fill m = true → Memory.wf fill m' = true →
    (∀ a, Memory.read fill m a = Memory.read fill m' a) → m = m'

/-- R48: a pop of a stack that is not empty gives `D[sp]` and adds 1 to `sp`; a pop at the sentinel gives 0 and changes
nothing. Nothing else changes in either case, and neither the value nor the state after it looks at `sl`. -/
def Obligations.PopTakesTheTopOrZero : Prop :=
  (∀ s : State, s.sp.toNat < Config.cap →
    (pop s).1 = readData s s.sp.toNat ∧ (pop s).2.sp.toNat = s.sp.toNat + 1 ∧
      (pop s).2 = { s with sp := (pop s).2.sp }) ∧
  (∀ s : State, Config.cap ≤ s.sp.toNat → pop s = (0, s)) ∧
  (∀ (s : State) (v : BitVec 16), pop { s with sl := v } = ((pop s).1, { (pop s).2 with sl := v }))

/-- R47: a push whose candidate address is at or below `sl` raises StackCollision with that address; one at or above
`CAP` raises StackExhausted; any other writes the cell and moves `sp` down by one (that a failed push leaves `sp` and
`D` as they were is D13, the second check is D22). -/
def Obligations.PushChecksThenWrites : Prop :=
  ∀ (s : State) (v : Word), DataWf s →
    (s.sp.toNat ≤ s.sl.toNat + 1 →
      push v s = .error (s.raise .stackCollision (wrap ((s.sp.toNat : Int) - 1)))) ∧
    (s.sl.toNat + 1 < s.sp.toNat → Config.cap < s.sp.toNat →
      push v s = .error (s.raise .stackExhausted (wrap ((s.sp.toNat : Int) - 1)))) ∧
    (CanPush s → ∃ t, push v s = .ok t ∧ Pushed v s t)

/-- R49: recording a store raises `sl` to the larger of itself and the address and changes nothing else; STO records
its store so, and no other instruction moves `sl`. -/
def Obligations.OnlyStoresRaiseTheHighWaterMark : Prop :=
  (∀ (s : State) (a : Nat), a < Config.cap →
    (recordStore a s).sl.toNat = max s.sl.toNat a ∧ recordStore a s = { s with sl := (recordStore a s).sl }) ∧
  (∀ (s : State) (a : Nat), (popTwo s).1.toInt = (a : Int) → a < Config.cap →
    ∃ t, exec .sto s = .next t ∧ t.sl = (recordStore a s).sl) ∧
  (∀ (i : Instr) (s t : State), i ≠ .sto → exec i s = .next t → t.sl = s.sl)

/-- R100: the right operand is the word on top, the left operand the one below it; a missing operand is 0. -/
def Obligations.RightOperandIsPoppedFirst : Prop :=
  ∀ s : State,
    (s.sp.toNat + 1 < Config.cap →
      (popTwo s).2.1 = readData s s.sp.toNat ∧ (popTwo s).1 = readData s (s.sp.toNat + 1) ∧
      (popTwo s).2.2.sp.toNat = s.sp.toNat + 2 ∧ (popTwo s).2.2 = { s with sp := (popTwo s).2.2.sp }) ∧
    (s.sp.toNat + 1 = Config.cap →
      (popTwo s).2.1 = readData s s.sp.toNat ∧ (popTwo s).1 = 0 ∧
      (popTwo s).2.2.sp.toNat = Config.cap ∧ (popTwo s).2.2 = { s with sp := (popTwo s).2.2.sp }) ∧
    (Config.cap ≤ s.sp.toNat → popTwo s = (0, 0, s))

/-! ## Results, frames and completion: stack and storage -/

/-- R90, R92: PUSH and LVALUE push the zero-extended operand. -/
def Obligations.PushAndLvaluePushTheOperand : Prop :=
  ∀ (s : State) (n : Operand), DataWf s → CanPush s →
    (∃ t, exec (.push n) s = .next t ∧ Pushed (n.setWidth 32) s t) ∧
    (∃ t, exec (.lvalue n) s = .next t ∧ Pushed (n.setWidth 32) s t)

/-- R91, R53: RVALUE pushes the whole word `D[n]` as it was before the push, wherever `n` lies. -/
def Obligations.RvaluePushesTheCell : Prop :=
  ∀ (s : State) (n : Operand), DataWf s → CanPush s →
    ∃ t, exec (.rvalue n) s = .next t ∧ Pushed (readData s n.toNat) s t

/-- R93, R51: POP only moves `sp`, and on an empty stack does nothing at all. -/
def Obligations.PopMovesOnlyTheStackPointer : Prop :=
  (∀ s : State, s.sp.toNat < Config.cap → exec .pop s = .next { s with sp := s.sp + 1 }) ∧
  (∀ s : State, Config.cap ≤ s.sp.toNat → exec .pop s = .next s)

/-- R94, R50: STO stores the value popped first at the signed address popped second, raises `sl` to it, makes no check
against `sp` (D21), and changes nothing but `sp`, `sl` and that cell. -/
def Obligations.StoStoresAndRaisesTheHighWaterMark : Prop :=
  ∀ (s : State) (a : Nat), DataWf s → (popTwo s).1.toInt = (a : Int) → a < Config.cap →
    ∃ t, exec .sto s = .next t ∧ readData t a = (popTwo s).2.1 ∧
      (∀ b, b ≠ a → readData t b = readData s b) ∧ t.sl.toNat = max s.sl.toNat a ∧
      t = { s with sp := (popTwo s).2.2.sp, sl := t.sl, data := t.data }

/-- R94, R167: an address that is negative or at least `CAP` raises DataAddressOutOfRange after both pops, and nothing
is written (the fault is D7). -/
def Obligations.StoOutsideDataMemoryTraps : Prop :=
  ∀ s : State, (popTwo s).1.toInt < 0 ∨ (Config.cap : Int) ≤ (popTwo s).1.toInt →
    exec .sto s = .next ((popTwo s).2.2.raise .dataAddressOutOfRange (popTwo s).1)

/-- R95: COPY pops a word and pushes it twice; when only the second push collides, the first stays (D13). -/
def Obligations.CopyDuplicatesTheTop : Prop :=
  ∀ s : State, DataWf s →
    (s.sl.toNat + 2 < (pop s).2.sp.toNat → (pop s).2.sp.toNat ≤ Config.cap →
      ∃ t u, exec .copy s = .next u ∧ Pushed (pop s).1 (pop s).2 t ∧ Pushed (pop s).1 t u) ∧
    (s.sl.toNat + 2 = (pop s).2.sp.toNat → (pop s).2.sp.toNat ≤ Config.cap →
      ∃ t, Pushed (pop s).1 (pop s).2 t ∧
        exec .copy s = .next (t.raise .stackCollision (s.sl.setWidth 32)))

/-! ## Arithmetic -/

/-- R101, R102, R103, R106: the exact result of the signed operands, narrowed to 32 bits (wrapping is D4). -/
def Obligations.AddSubMpyNegResults : Prop :=
  ∀ s : State, DataWf s →
    (CanPush (popTwo s).2.2 →
      (∃ t, exec .add s = .next t ∧
        Pushed (wrap ((popTwo s).1.toInt + (popTwo s).2.1.toInt)) (popTwo s).2.2 t) ∧
      (∃ t, exec .sub s = .next t ∧
        Pushed (wrap ((popTwo s).1.toInt - (popTwo s).2.1.toInt)) (popTwo s).2.2 t) ∧
      (∃ t, exec .mpy s = .next t ∧
        Pushed (wrap ((popTwo s).1.toInt * (popTwo s).2.1.toInt)) (popTwo s).2.2 t)) ∧
    (CanPush (pop s).2 →
      ∃ t, exec .neg s = .next t ∧ Pushed (wrap (-(pop s).1.toInt)) (pop s).2 t)

/-- R104, R105: with a divisor that is not 0, DIV pushes the quotient rounded toward zero and MOD the remainder that
goes with it (rounding is D5, wrapping D4). -/
def Obligations.DivModResults : Prop :=
  ∀ s : State, DataWf s → CanPush (popTwo s).2.2 → (popTwo s).2.1 ≠ 0 →
    (∃ t, exec .div s = .next t ∧
      Pushed (wrap ((popTwo s).1.toInt.tdiv (popTwo s).2.1.toInt)) (popTwo s).2.2 t) ∧
    (∃ t, exec .mod s = .next t ∧
      Pushed (wrap ((popTwo s).1.toInt.tmod (popTwo s).2.1.toInt)) (popTwo s).2.2 t)

/-- R104, R105, R165: a divisor of 0 raises DivideByZero with the dividend, after both pops and before any push, even
where the push would collide (R171 (d); the place and the recorded value are D6). -/
def Obligations.DivisionByZeroTraps : Prop :=
  ∀ s : State, (popTwo s).2.1 = 0 →
    exec .div s = .next ((popTwo s).2.2.raise .divideByZero (popTwo s).1) ∧
    exec .mod s = .next ((popTwo s).2.2.raise .divideByZero (popTwo s).1)

/-- R105, R107: quotient and remainder together give the dividend back, the remainder is smaller than the divisor and
has the sign of the dividend or is 0 (D5). -/
def Obligations.QuotientAndRemainderAgree : Prop :=
  ∀ left right : Word, right ≠ 0 →
    aluDiv left right * right + aluMod left right = left ∧
    (aluMod left right).toInt.natAbs < right.toInt.natAbs ∧
    (0 ≤ left.toInt → 0 ≤ (aluMod left right).toInt) ∧ (left.toInt ≤ 0 → (aluMod left right).toInt ≤ 0)

/-! ## Logic and comparison -/

/-- R110, R111, R112: NOT inverts every bit; OR gives 0 only if both words are zero, AND gives 1 only if both are not. -/
def Obligations.NotOrAndResults : Prop :=
  ∀ s : State, DataWf s →
    (CanPush (pop s).2 → ∃ t, exec .not s = .next t ∧ Pushed (~~~(pop s).1) (pop s).2 t) ∧
    (CanPush (popTwo s).2.2 →
      (∃ t, exec .or s = .next t ∧
        Pushed (if (popTwo s).1 = 0 ∧ (popTwo s).2.1 = 0 then 0 else 1) (popTwo s).2.2 t) ∧
      (∃ t, exec .and s = .next t ∧
        Pushed (if (popTwo s).1 ≠ 0 ∧ (popTwo s).2.1 ≠ 0 then 1 else 0) (popTwo s).2.2 t))

/-- R113 to R118: 1 if the relation holds between the left and the right operand, else 0; the order is signed. -/
def Obligations.ComparisonResults : Prop :=
  ∀ s : State, DataWf s → CanPush (popTwo s).2.2 →
    (∃ t, exec .eq s = .next t ∧ Pushed (if (popTwo s).1 = (popTwo s).2.1 then 1 else 0) (popTwo s).2.2 t) ∧
    (∃ t, exec .ne s = .next t ∧ Pushed (if (popTwo s).1 ≠ (popTwo s).2.1 then 1 else 0) (popTwo s).2.2 t) ∧
    (∃ t, exec .gt s = .next t ∧
      Pushed (if (popTwo s).1.toInt > (popTwo s).2.1.toInt then 1 else 0) (popTwo s).2.2 t) ∧
    (∃ t, exec .ge s = .next t ∧
      Pushed (if (popTwo s).1.toInt ≥ (popTwo s).2.1.toInt then 1 else 0) (popTwo s).2.2 t) ∧
    (∃ t, exec .lt s = .next t ∧
      Pushed (if (popTwo s).1.toInt < (popTwo s).2.1.toInt then 1 else 0) (popTwo s).2.2 t) ∧
    (∃ t, exec .le s = .next t ∧
      Pushed (if (popTwo s).1.toInt ≤ (popTwo s).2.1.toInt then 1 else 0) (popTwo s).2.2 t)

/-- R100, R119, R107, R201: on an empty stack the missing operands are 0, so of the sixteen two-operand instructions EQ,
GE and LE push 1, DIV and MOD raise DivideByZero(0) (place and recorded value: D6), and the other eleven push 0. -/
def Obligations.EmptyStackSuppliesZeros : Prop :=
  ∀ s : State, DataWf s → s.sp.toNat = Config.cap → s.sl.toNat + 1 < Config.cap →
    (∀ i ∈ [Instr.eq, .ge, .le], ∃ t, exec i s = .next t ∧ Pushed 1 s t) ∧
    (∀ i ∈ [Instr.add, .sub, .mpy, .or, .and, .ne, .gt, .lt, .orb, .andb, .xorb], ∃ t, exec i s = .next t ∧ Pushed 0 s t) ∧
    (∀ i ∈ [Instr.div, .mod], exec i s = .next (s.raise .divideByZero 0))

/-! ## Bitwise operations and shifts -/

/-- R150, R151, R152: bit by bit. -/
def Obligations.BitwiseResults : Prop :=
  ∀ s : State, DataWf s → CanPush (popTwo s).2.2 →
    ∃ t u v, exec .orb s = .next t ∧ exec .andb s = .next u ∧ exec .xorb s = .next v ∧
      Pushed (readData t t.sp.toNat) (popTwo s).2.2 t ∧ Pushed (readData u u.sp.toNat) (popTwo s).2.2 u ∧
      Pushed (readData v v.sp.toNat) (popTwo s).2.2 v ∧
      ∀ i : Nat, i < 32 →
        (readData t t.sp.toNat).getLsbD i = ((popTwo s).1.getLsbD i || (popTwo s).2.1.getLsbD i) ∧
        (readData u u.sp.toNat).getLsbD i = ((popTwo s).1.getLsbD i && (popTwo s).2.1.getLsbD i) ∧
        (readData v v.sp.toNat).getLsbD i = Bool.xor ((popTwo s).1.getLsbD i) ((popTwo s).2.1.getLsbD i)

/-- R153, R154, R155: SHL pushes `wrap(2 * u(v))` (discarding the high bit is D4), SHR the word whose unsigned value is
`u(v) / 2` rounded down, SAR the word whose signed value is `s(v) / 2` rounded down. -/
def Obligations.ShiftResults : Prop :=
  ∀ s : State, DataWf s → CanPush (pop s).2 →
    (∃ t, exec .shl s = .next t ∧ Pushed (wrap (2 * ((pop s).1.toNat : Int))) (pop s).2 t) ∧
    (∃ t v, exec .shr s = .next t ∧ Pushed v (pop s).2 t ∧ v.toNat = (pop s).1.toNat / 2) ∧
    (∃ t v, exec .sar s = .next t ∧ Pushed v (pop s).2 t ∧ v.toInt = (pop s).1.toInt.fdiv 2)

/-! ## Control flow -/

/-- R120, R121: LABEL changes nothing, GOTO only `pc`, to the absolute address (the increment is the cycle's). -/
def Obligations.LabelAndGotoResults : Prop :=
  ∀ (s : State) (n : Operand),
    exec .label s = .next s ∧
    ∃ t, exec (.goto n) s = .next t ∧ t.pc.toNat = n.toNat ∧ t = { s with pc := t.pc }

/-- R122, R123: the condition is always popped; GOFALSE branches on the word 0 and GOTRUE on any other, else `pc` stays.
On an empty stack the condition is 0. -/
def Obligations.ConditionalBranchResults : Prop :=
  ∀ (s : State) (n : Operand),
    (∃ t, exec (.gofalse n) s = .next t ∧
      t.pc.toNat = (if (pop s).1 = 0 then n.toNat else s.pc.toNat) ∧ t = { (pop s).2 with pc := t.pc }) ∧
    (∃ t, exec (.gotrue n) s = .next t ∧
      t.pc.toNat = (if (pop s).1 = 0 then s.pc.toNat else n.toNat) ∧ t = { (pop s).2 with pc := t.pc })

/-- R140, R141: GOSUB saves `pc` on the return-address stack and jumps; RET goes to the most recent saved address and
takes it off. Neither touches anything else (the unbounded stack is D14). -/
def Obligations.GosubAndRetResults : Prop :=
  (∀ (s : State) (n : Operand), ∃ t, exec (.gosub n) s = .next t ∧ t.pc.toNat = n.toNat ∧
    t = { s with pc := t.pc, rs := s.rs ++ [s.pc] }) ∧
  (∀ (s : State) (rest : List Pointer) (a : Pointer), s.rs = rest ++ [a] →
    exec .ret s = .next { s with pc := a, rs := rest })

/-- R141, R163: RET with an empty return-address stack raises ReturnStackEmpty with `pc`, and nothing else changes
(the recorded value is D12). -/
def Obligations.RetOnEmptyStackTraps : Prop :=
  ∀ s : State, s.rs = [] → ∃ t, exec .ret s = .next t ∧ t.info.toNat = s.pc.toNat ∧
    t = { s with run := false, cause := .returnStackEmpty, info := t.info }

/-- R163: a RET that finds the return-address stack empty is a fatal error: it raises ReturnStackEmpty and the machine
takes no further step. No other instruction raises it, and no RET that finds an address. The form of the fatal error
is not R163's: the recorded cause is D12 (R170), the missing step is R7 and the model's fault `stopped` (log entry 5). -/
def Obligations.ReturnStackEmptyIsRaisedByRetOnly : Prop :=
  (∀ s : State, s.rs = [] →
    ∃ t, exec .ret s = .next t ∧ t.run = false ∧ t.cause = .returnStackEmpty ∧ step t = .fault .stopped) ∧
  (∀ (i : Instr) (s t : State), exec i s = .next t → s.cause ≠ .returnStackEmpty → t.cause = .returnStackEmpty →
    i = .ret ∧ s.rs = [])

/-- R45, R91, R140, R168: in a build with a smaller data memory RVALUE outside it raises DataAddressOutOfRange(n) (D7),
and with a return-address stack of `d` entries a GOSUB that finds `d` there raises ReturnStackOverflow(pc) (D14). -/
def Obligations.FiniteBuildsTrap : Prop :=
  (∀ (cap : Nat) (n : Operand) (s : State), cap ≤ n.toNat →
    rvalueWithin cap n s = .next (s.raise .dataAddressOutOfRange (n.setWidth 32))) ∧
  (∀ (d : Nat) (n : Operand) (s : State), d ≤ s.rs.length →
    gosubWithin (some d) n s = .next (s.raise .returnStackOverflow (s.pc.setWidth 32))) ∧
  (∀ (d : Nat) (n : Operand) (s : State), s.rs.length < d → gosubWithin (some d) n s = exec (.gosub n) s)

/-- R84: HALT clears `run` and changes nothing else; the cycle that runs it ends with `pc` one past the HALT. The machine
then takes no further step (R7, R25; in the model's form, the fault `stopped`, log entry 5). -/
def Obligations.HaltClearsRun : Prop :=
  (∀ s : State, exec .halt s = .next { s with run := false }) ∧
  (∀ s : State, Runs .halt s → ∃ t, step s = .next t ∧ t = { s with pc := s.pc + 1, run := false } ∧
    t.pc.toNat = s.pc.toNat + 1 ∧ step t = .fault .stopped)

/-! ## Ports -/

/-- R130, R133: PRINT pops a word and appends it to the output; an empty stack emits 0. -/
def Obligations.PrintAppendsToTheOutput : Prop :=
  ∀ s : State, ∃ t, exec .print s = .next t ∧ t.out = s.out ++ [(pop s).1] ∧ t = { (pop s).2 with out := t.out }

/-- R131, R132: READ with a word available consumes exactly that word and pushes it; when the push collides, the word
has been consumed (D16). -/
def Obligations.ReadConsumesOneWord : Prop :=
  ∀ (s : State) (v : Word), DataWf s → s.input[s.inpos]? = some v →
    (CanPush s → ∃ t, exec .read s = .next t ∧ Pushed v { s with inpos := s.inpos + 1 } t) ∧
    (s.sp.toNat ≤ s.sl.toNat + 1 →
      exec .read s = .next ({ s with inpos := s.inpos + 1 }.raise .stackCollision (wrap ((s.sp.toNat : Int) - 1))))

/-- R131, R132, R179: before a READ with no word available the machine waits and no state changes; once a word is
delivered the same READ takes it (the wait as a step that changes nothing is the model's, log entry 6). -/
def Obligations.ReadWaitsForInput : Prop :=
  ∀ (s : State) (v : Word), Waits s →
    step s = .next s ∧
    (s.inpos = s.input.length → DataWf s → CanPush s →
      ∃ t, step (deliver [v] s) = .next t ∧
        Pushed v { s with pc := s.pc + 1, input := s.input ++ [v], inpos := s.inpos + 1 } t)

/-! ## Traps -/

/-- R170, R160: taking an exception stops the machine, records the cause and the information word, and changes nothing
else; the codes are those of the table (D12). -/
def Obligations.RaiseStopsAndRecords : Prop :=
  (∀ (s : State) (c : Cause) (i : Word), s.raise c i = { s with run := false, cause := c, info := i } ∧
    statusPort (s.raise c i) = (0, c.code, i)) ∧
  [Cause.none, .stackCollision, .stackExhausted, .returnStackEmpty, .unrecognizedOpcode, .divideByZero,
    .pcOutOfRange, .dataAddressOutOfRange, .returnStackOverflow].map (fun c => c.code.toNat) =
    [0, 1, 2, 3, 4, 5, 6, 7, 8]

/-- R47, R160, R161: every instruction that pushes raises StackCollision(sp - 1) when its (first) push would land at or
below `sl`, with its pops done and its input word consumed and nothing else changed (D13). -/
def Obligations.EveryPushCollides : Prop :=
  ∀ (i : Instr) (s s' : State), stateAtPush i s = some s' → s'.sp.toNat ≤ s'.sl.toNat + 1 →
    exec i s = .next (s'.raise .stackCollision (wrap ((s'.sp.toNat : Int) - 1)))

/-- R160: an instruction raises only the causes the table lists for it; one that raises nothing leaves `cause` and
`info` alone, and `run` too unless it is HALT (R83 (e)). -/
def Obligations.OnlyListedCausesAreRaised : Prop :=
  ∀ (i : Instr) (s t : State), exec i s = .next t →
    (t.run = false ∧ t.cause ∈ mayRaise i) ∨
    (t.cause = s.cause ∧ t.info = s.info ∧ (i ≠ .halt → t.run = s.run))

/-! ## The cycle -/

/-- R80, R81: when the machine runs and the word at `pc` decodes to a well-formed instruction, the step is that
instruction's execute phase on the state with `pc` incremented. -/
def Obligations.StepRunsTheDecodedInstruction : Prop :=
  ∀ (i : Instr) (s : State), s.run = true → s.pc.toNat < Config.cap → decode (readCode s s.pc.toNat) = .ok i →
    i.wellFormed = true → step s = exec i { s with pc := s.pc + 1 } ∧ (s.pc + 1).toNat = s.pc.toNat + 1

/-- An instruction word that the host places where the machine fetches is the one the next step runs, with nothing
else of the state changed but the word of code memory at `pc` (log entry 3). -/
def Obligations.PlacedWordIsRunNext : Prop :=
  ∀ (s : State) (w : Word) (i : Instr), s.run = true → s.pc.toNat < Config.cap →
    Memory.wf Config.codeFill s.code = true → decode w = .ok i →
    ∃ code, s.withFetchWord 32 w.toNat = { s with code := code } ∧ Memory.read Config.codeFill code s.pc.toNat = w ∧
      (∀ a, a ≠ s.pc.toNat → Memory.read Config.codeFill code a = readCode s a) ∧
      step (s.withFetchWord 32 w.toNat) = exec i { s with pc := s.pc + 1, code := code }

/-- R80, R82, R166: a fetch at `pc >= CAP` raises PcOutOfRange(pc) with `pc` unchanged (D8); an unrecognized opcode
raises UnrecognizedOpcode(opcode) with `pc` incremented; nothing else changes in either case (D12). -/
def Obligations.FetchAndDispatchTraps : Prop :=
  ∀ s : State, s.run = true →
    (Config.cap ≤ s.pc.toNat → step s = .next (s.raise .pcOutOfRange (s.pc.setWidth 32))) ∧
    (s.pc.toNat < Config.cap → 36 ≤ (opcodeField (readCode s s.pc.toNat)).toNat →
      step s = .next ({ s with pc := s.pc + 1 }.raise .unrecognizedOpcode
        ((opcodeField (readCode s s.pc.toNat)).setWidth 32)))

/-- R7, R25: a machine with `run` = 1 has a next state, one with `run` = 0 has none (the model's fault `stopped`, log
entry 5); no step is refused. Before a READ without input R7 takes no step; that the step is there, and changes
nothing, is the model's choice (log entry 6). -/
def Obligations.StepExistsExactlyWhileRunning : Prop :=
  ∀ s : State, (s.run = true → ∃ t, step s = .next t) ∧ (s.run = false → step s = .fault .stopped)

/-- R7: the outcomes of a step. No step exactly when `run` is 0 (log entry 5); blocked exactly before a READ without input
(the model's form of waiting, log entry 6); halted exactly by HALT; faulted with a cause recorded; otherwise a running state with no cause. -/
def Obligations.OutcomesOfACycle : Prop :=
  ∀ s : State, Inv s →
    (cycleOutcome s = .terminal ↔ s.run = false) ∧ (cycleOutcome s = .blocked ↔ Waits s) ∧
    ((∃ t, cycleOutcome s = .halted t) ↔ Runs .halt s) ∧
    (∀ t, cycleOutcome s = .halted t → t.run = false ∧ t.cause = .none ∧ t.info = 0) ∧
    (∀ c x t, cycleOutcome s = .faulted c x t → t.run = false ∧ t.cause = c ∧ t.info = x ∧ c ≠ .none) ∧
    (∀ t, cycleOutcome s = .next t → t.run = true ∧ t.cause = .none)

/-! ## Frames -/

/-- R24: which registers an instruction leaves unchanged, whatever its operands and whether or not it raises. READ that
waits puts `pc` back to its own address (log entry 6), every other READ leaves it. -/
def Obligations.InstructionsTouchOnlyTheirRegisters : Prop :=
  ∀ (i : Instr) (s t : State), exec i s = .next t →
    (writesPc i = false → (i = .read → s.inpos < s.input.length) → t.pc = s.pc) ∧
    (leavesSp i = true → t.sp = s.sp) ∧ (i ≠ .sto → t.sl = s.sl) ∧
    ((∀ n, i ≠ .gosub n) → i ≠ .ret → t.rs = s.rs) ∧ (leavesData i = true → t.data = s.data) ∧
    (i ≠ .print → t.out = s.out) ∧ (i ≠ .read → t.inpos = s.inpos) ∧ t.code = s.code ∧ t.input = s.input

/-- R52: every word of data memory outside the addresses an instruction stores to reads as before: the cell of its push,
both cells of COPY, the address STO pops, and nothing for the instructions that store nothing. -/
def Obligations.DataChangesOnlyWhereStored : Prop :=
  ∀ (i : Instr) (s t : State), exec i s = .next t → ∀ a, a ∉ storedAddresses i s → readData t a = readData s a

/-! ## Whole-machine rules -/

/-- R32: every step keeps the invariant. -/
def Obligations.EveryStepKeepsTheInvariant : Prop :=
  ∀ s t : State, Inv s → step s = .next t → Inv t

/-- R28, R58, R196: no step changes code memory, and none changes what the environment supplies (R132). -/
def Obligations.NoStepChangesCodeOrInput : Prop :=
  ∀ s t : State, step s = .next t → t.code = s.code ∧ t.input = s.input

/-- R29, R47, R50: the collision check. No step but a STO changes a word of general storage, that is, at or below
`sl`. -/
def Obligations.PushesNeverHitGeneralStorage : Prop :=
  ∀ (s t : State) (a : Nat), step s = .next t → ¬ Runs .sto s → a ≤ s.sl.toNat → readData t a = readData s a

/-- R32 (f), R50: every step but a STO keeps the operand stack above general storage, and so does a STO to an address
below the stack. -/
def Obligations.StackStaysAboveStorage : Prop :=
  ∀ s t : State, Inv s → StackAboveStorage s → step s = .next t →
    (Runs .sto s → ∀ a, storeAddress (popTwo s).1 = some a → a < t.sp.toNat) → StackAboveStorage t

/-- R32 (d), R133, R132: along every step `sl` never decreases, output is only appended, one word at most and only by
PRINT, and input is consumed in order, one word at most and only by READ. -/
def Obligations.HistoriesOnlyGrow : Prop :=
  ∀ s t : State, step s = .next t →
    s.sl.toNat ≤ t.sl.toNat ∧
    (t.out = s.out ∨ (Runs .print s ∧ ∃ v, t.out = s.out ++ [v])) ∧
    (t.inpos = s.inpos ∨ (Runs .read s ∧ t.inpos = s.inpos + 1))

/-- R162, R168: from a state that meets the invariant no step raises StackExhausted, and none raises
ReturnStackOverflow (D14, D22). -/
def Obligations.UnreachableCausesAreNotRaised : Prop :=
  ∀ s t : State, Inv s → step s = .next t → t.cause ≠ .stackExhausted ∧ t.cause ≠ .returnStackOverflow

/-- R133: the machine never reads its output: what was emitted before has no influence on a step. -/
def Obligations.OutputIsNeverRead : Prop :=
  ∀ (s : State) (o : List Word),
    step { s with out := o ++ s.out } = mapNext (fun t => { t with out := o ++ t.out }) (step s)

/-- R132: input that is not consumed has no influence: delivering further words changes no step but that of a waiting
READ. -/
def Obligations.UnreadInputHasNoInfluence : Prop :=
  ∀ (s : State) (ws : List Word), ¬ Waits s → step (deliver ws s) = mapNext (deliver ws) (step s)

/-- R140, R141 (the source's property S6): a GOSUB to a RET comes back to the instruction after the GOSUB with nothing
changed but `pc`. -/
def Obligations.GosubThenRetReturns : Prop :=
  ∀ (s : State) (n : Operand), Runs (.gosub n) s → decode (readCode s n.toNat) = .ok .ret →
    Sys2Proof.core.run 2 s = .next { s with pc := s.pc + 1 }

/-- R100, R102 (the source's property S3): `PUSH a; PUSH b; SUB` leaves `a - b` on top, one entry more than before,
every live stack entry as it was. -/
def Obligations.PushPushSubSubtractsInSourceOrder : Prop :=
  ∀ (s : State) (a b : Operand), DataWf s → s.sl.toNat + 2 < s.sp.toNat → s.sp.toNat ≤ Config.cap →
    Runs (.push a) s → s.pc.toNat + 2 < Config.cap → decode (readCode s (s.pc.toNat + 1)) = .ok (.push b) →
    decode (readCode s (s.pc.toNat + 2)) = .ok .sub →
    ∃ t : State, Sys2Proof.core.run 3 s = .next t ∧ t.sp.toNat + 1 = s.sp.toNat ∧
      (readData t t.sp.toNat).toInt = (a.toNat : Int) - (b.toNat : Int) ∧
      (∀ x, s.sp.toNat ≤ x → readData t x = readData s x) ∧
      t = { s with pc := t.pc, sp := t.sp, data := t.data } ∧ t.pc.toNat = s.pc.toNat + 3
end

