-- ==== Sys2Proof/Laws/Decode.lean ====
section
/-! SUPPORT. The two fields of a word and of a word put together from two halves. -/

namespace Sys2Proof

@[simp] theorem opcodeField_append (c : Opcode) (n : Operand) : opcodeField (c ++ n) = c := by
  apply BitVec.eq_of_getLsbD_eq
  intro i hi
  simp only [opcodeField, BitVec.getLsbD_extractLsb', BitVec.getLsbD_append]
  simp [hi]

@[simp] theorem operandField_append (c : Opcode) (n : Operand) : operandField (c ++ n) = n := by
  apply BitVec.eq_of_getLsbD_eq
  intro i hi
  simp only [operandField, BitVec.getLsbD_extractLsb', BitVec.getLsbD_append]
  simp [hi]

/-- A word is its two fields. -/
theorem append_fields (w : Word) : opcodeField w ++ operandField w = w := by
  apply BitVec.eq_of_getLsbD_eq
  intro i hi
  simp only [opcodeField, operandField, BitVec.getLsbD_extractLsb', BitVec.getLsbD_append]
  by_cases h : i < 16
  · simp [h]
  · have h' : i - 16 < 16 := by omega
    have h'' : 16 + (i - 16) = i := by omega
    simp [h, h', h'']

end Sys2Proof
end

