-- ==== Sys2Proof/Laws/Memory.lean ====
section
/-! SUPPORT. The laws of a word memory: a read after a write, and the canonical form, which every write keeps. -/

namespace Sys2Proof.Machine.Memory

variable {fill : Word}

@[simp] theorem read_nil (a : Nat) : read fill [] a = fill := rfl

theorem read_cons (b a : Nat) (w : Word) (m : Memory) :
    read fill ((b, w) :: m) a = if a = b then w else read fill m a := rfl

@[simp] theorem wfFrom_nil (lo : Nat) : wfFrom fill lo [] = true := rfl

theorem wfFrom_cons {lo b : Nat} {w : Word} {m : Memory} :
    wfFrom fill lo ((b, w) :: m) = true ↔
      lo ≤ b ∧ b < Config.cap ∧ w ≠ fill ∧ wfFrom fill (b + 1) m = true := by
  simp [wfFrom, and_assoc]

/-- The lower bound may be lowered. -/
theorem wfFrom_mono {lo lo' : Nat} {m : Memory} (h : lo' ≤ lo) (hm : wfFrom fill lo m = true) :
    wfFrom fill lo' m = true := by
  cases m with
  | nil => rfl
  | cons c m =>
    obtain ⟨b, w⟩ := c
    rw [wfFrom_cons] at hm ⊢
    exact ⟨h.trans hm.1, hm.2⟩

/-- Below the lower bound nothing is listed. -/
theorem read_below {lo a : Nat} {m : Memory} (hm : wfFrom fill lo m = true) (h : a < lo) :
    read fill m a = fill := by
  induction m generalizing lo with
  | nil => rfl
  | cons c m ih =>
    obtain ⟨b, w⟩ := c
    rw [wfFrom_cons] at hm
    rw [read_cons, if_neg (by omega)]
    exact ih hm.2.2.2 (by omega)

/-- A write leaves every other address alone, in any memory. -/
theorem read_write_other {a b : Nat} (m : Memory) (v : Word) (h : b ≠ a) :
    read fill (write fill m a v) b = read fill m b := by
  induction m with
  | nil => unfold write; split <;> simp [read_cons, h]
  | cons c m ih =>
    obtain ⟨k, w⟩ := c
    unfold write
    split
    · split <;> simp [read_cons, h]
    · split
      · rename_i hk; subst hk; split <;> simp [read_cons, h]
      · simp [read_cons, ih]

/-- A read of the address just written gives the value written. -/
theorem read_write_same {lo a : Nat} {m : Memory} (hm : wfFrom fill lo m = true) (v : Word) :
    read fill (write fill m a v) a = v := by
  induction m generalizing lo with
  | nil =>
    unfold write
    split
    · rename_i hv; simp [hv]
    · simp [read_cons]
  | cons c m ih =>
    obtain ⟨k, w⟩ := c
    rw [wfFrom_cons] at hm
    unfold write
    split
    · rename_i hk
      split
      · rename_i hv
        rw [read_cons, if_neg (by omega), read_below hm.2.2.2 (by omega), hv]
      · simp [read_cons]
    · split
      · rename_i hk; subst hk
        split
        · rename_i hv; rw [read_below hm.2.2.2 (by omega), hv]
        · simp [read_cons]
      · rename_i hk
        rw [read_cons, if_neg hk]
        exact ih hm.2.2.2

/-- A write inside the space keeps the canonical form. -/
theorem wfFrom_write {lo a : Nat} {m : Memory} (hm : wfFrom fill lo m = true) (v : Word) (hlo : lo ≤ a)
    (ha : a < Config.cap) : wfFrom fill lo (write fill m a v) = true := by
  induction m generalizing lo with
  | nil =>
    unfold write
    split
    · rfl
    · rename_i hv; rw [wfFrom_cons]; exact ⟨hlo, ha, hv, rfl⟩
  | cons c m ih =>
    obtain ⟨k, w⟩ := c
    have hm' := wfFrom_cons.1 hm
    unfold write
    split
    · split
      · exact hm
      · rename_i hk hv
        rw [wfFrom_cons]
        exact ⟨hlo, ha, hv, wfFrom_cons.2 ⟨by omega, hm'.2⟩⟩
    · split
      · rename_i hk; subst hk
        split
        · exact wfFrom_mono (by omega) hm'.2.2.2
        · rename_i hv; rw [wfFrom_cons]; exact ⟨hlo, ha, hv, hm'.2.2.2⟩
      · rename_i hk1 hk2
        rw [wfFrom_cons]
        exact ⟨hm'.1, hm'.2.1, hm'.2.2.1, ih hm'.2.2.2 (by omega)⟩

/-- A write inside the space keeps the canonical form of a whole memory. -/
theorem wf_write {a : Nat} {m : Memory} (hm : wf fill m = true) (v : Word) (ha : a < Config.cap) :
    wf fill (write fill m a v) = true :=
  wfFrom_write hm v (Nat.zero_le a) ha

end Sys2Proof.Machine.Memory
end

