-- ==== Sys2Proof/Laws/State.lean ====
section
/-! SUPPORT. One lemma per field per update of the state, each true by definition, so that no proof unfolds a record
update. -/

namespace Sys2Proof.Machine

/-! ## State.setPc -/

@[simp] theorem State.setPc_pc (s : State) (v : Pointer) : (s.setPc v).pc = v := rfl
@[simp] theorem State.setPc_sp (s : State) (v : Pointer) : (s.setPc v).sp = s.sp := rfl
@[simp] theorem State.setPc_sl (s : State) (v : Pointer) : (s.setPc v).sl = s.sl := rfl
@[simp] theorem State.setPc_run (s : State) (v : Pointer) : (s.setPc v).run = s.run := rfl
@[simp] theorem State.setPc_cause (s : State) (v : Pointer) : (s.setPc v).cause = s.cause := rfl
@[simp] theorem State.setPc_info (s : State) (v : Pointer) : (s.setPc v).info = s.info := rfl
@[simp] theorem State.setPc_rs (s : State) (v : Pointer) : (s.setPc v).rs = s.rs := rfl
@[simp] theorem State.setPc_data (s : State) (v : Pointer) : (s.setPc v).data = s.data := rfl
@[simp] theorem State.setPc_code (s : State) (v : Pointer) : (s.setPc v).code = s.code := rfl
@[simp] theorem State.setPc_out (s : State) (v : Pointer) : (s.setPc v).out = s.out := rfl
@[simp] theorem State.setPc_input (s : State) (v : Pointer) : (s.setPc v).input = s.input := rfl
@[simp] theorem State.setPc_inpos (s : State) (v : Pointer) : (s.setPc v).inpos = s.inpos := rfl

/-! ## State.setSp -/

@[simp] theorem State.setSp_pc (s : State) (v : Pointer) : (s.setSp v).pc = s.pc := rfl
@[simp] theorem State.setSp_sp (s : State) (v : Pointer) : (s.setSp v).sp = v := rfl
@[simp] theorem State.setSp_sl (s : State) (v : Pointer) : (s.setSp v).sl = s.sl := rfl
@[simp] theorem State.setSp_run (s : State) (v : Pointer) : (s.setSp v).run = s.run := rfl
@[simp] theorem State.setSp_cause (s : State) (v : Pointer) : (s.setSp v).cause = s.cause := rfl
@[simp] theorem State.setSp_info (s : State) (v : Pointer) : (s.setSp v).info = s.info := rfl
@[simp] theorem State.setSp_rs (s : State) (v : Pointer) : (s.setSp v).rs = s.rs := rfl
@[simp] theorem State.setSp_data (s : State) (v : Pointer) : (s.setSp v).data = s.data := rfl
@[simp] theorem State.setSp_code (s : State) (v : Pointer) : (s.setSp v).code = s.code := rfl
@[simp] theorem State.setSp_out (s : State) (v : Pointer) : (s.setSp v).out = s.out := rfl
@[simp] theorem State.setSp_input (s : State) (v : Pointer) : (s.setSp v).input = s.input := rfl
@[simp] theorem State.setSp_inpos (s : State) (v : Pointer) : (s.setSp v).inpos = s.inpos := rfl

/-! ## State.setSl -/

@[simp] theorem State.setSl_pc (s : State) (v : BitVec 16) : (s.setSl v).pc = s.pc := rfl
@[simp] theorem State.setSl_sp (s : State) (v : BitVec 16) : (s.setSl v).sp = s.sp := rfl
@[simp] theorem State.setSl_sl (s : State) (v : BitVec 16) : (s.setSl v).sl = v := rfl
@[simp] theorem State.setSl_run (s : State) (v : BitVec 16) : (s.setSl v).run = s.run := rfl
@[simp] theorem State.setSl_cause (s : State) (v : BitVec 16) : (s.setSl v).cause = s.cause := rfl
@[simp] theorem State.setSl_info (s : State) (v : BitVec 16) : (s.setSl v).info = s.info := rfl
@[simp] theorem State.setSl_rs (s : State) (v : BitVec 16) : (s.setSl v).rs = s.rs := rfl
@[simp] theorem State.setSl_data (s : State) (v : BitVec 16) : (s.setSl v).data = s.data := rfl
@[simp] theorem State.setSl_code (s : State) (v : BitVec 16) : (s.setSl v).code = s.code := rfl
@[simp] theorem State.setSl_out (s : State) (v : BitVec 16) : (s.setSl v).out = s.out := rfl
@[simp] theorem State.setSl_input (s : State) (v : BitVec 16) : (s.setSl v).input = s.input := rfl
@[simp] theorem State.setSl_inpos (s : State) (v : BitVec 16) : (s.setSl v).inpos = s.inpos := rfl

/-! ## State.setRs -/

@[simp] theorem State.setRs_pc (s : State) (v : List Pointer) : (s.setRs v).pc = s.pc := rfl
@[simp] theorem State.setRs_sp (s : State) (v : List Pointer) : (s.setRs v).sp = s.sp := rfl
@[simp] theorem State.setRs_sl (s : State) (v : List Pointer) : (s.setRs v).sl = s.sl := rfl
@[simp] theorem State.setRs_run (s : State) (v : List Pointer) : (s.setRs v).run = s.run := rfl
@[simp] theorem State.setRs_cause (s : State) (v : List Pointer) : (s.setRs v).cause = s.cause := rfl
@[simp] theorem State.setRs_info (s : State) (v : List Pointer) : (s.setRs v).info = s.info := rfl
@[simp] theorem State.setRs_rs (s : State) (v : List Pointer) : (s.setRs v).rs = v := rfl
@[simp] theorem State.setRs_data (s : State) (v : List Pointer) : (s.setRs v).data = s.data := rfl
@[simp] theorem State.setRs_code (s : State) (v : List Pointer) : (s.setRs v).code = s.code := rfl
@[simp] theorem State.setRs_out (s : State) (v : List Pointer) : (s.setRs v).out = s.out := rfl
@[simp] theorem State.setRs_input (s : State) (v : List Pointer) : (s.setRs v).input = s.input := rfl
@[simp] theorem State.setRs_inpos (s : State) (v : List Pointer) : (s.setRs v).inpos = s.inpos := rfl

/-! ## State.clearRun -/

@[simp] theorem State.clearRun_pc (s : State) : (s.clearRun).pc = s.pc := rfl
@[simp] theorem State.clearRun_sp (s : State) : (s.clearRun).sp = s.sp := rfl
@[simp] theorem State.clearRun_sl (s : State) : (s.clearRun).sl = s.sl := rfl
@[simp] theorem State.clearRun_run (s : State) : (s.clearRun).run = false := rfl
@[simp] theorem State.clearRun_cause (s : State) : (s.clearRun).cause = s.cause := rfl
@[simp] theorem State.clearRun_info (s : State) : (s.clearRun).info = s.info := rfl
@[simp] theorem State.clearRun_rs (s : State) : (s.clearRun).rs = s.rs := rfl
@[simp] theorem State.clearRun_data (s : State) : (s.clearRun).data = s.data := rfl
@[simp] theorem State.clearRun_code (s : State) : (s.clearRun).code = s.code := rfl
@[simp] theorem State.clearRun_out (s : State) : (s.clearRun).out = s.out := rfl
@[simp] theorem State.clearRun_input (s : State) : (s.clearRun).input = s.input := rfl
@[simp] theorem State.clearRun_inpos (s : State) : (s.clearRun).inpos = s.inpos := rfl

/-! ## writeData -/

@[simp] theorem writeData_pc (s : State) (a : Nat) (v : Word) : (writeData s a v).pc = s.pc := rfl
@[simp] theorem writeData_sp (s : State) (a : Nat) (v : Word) : (writeData s a v).sp = s.sp := rfl
@[simp] theorem writeData_sl (s : State) (a : Nat) (v : Word) : (writeData s a v).sl = s.sl := rfl
@[simp] theorem writeData_run (s : State) (a : Nat) (v : Word) : (writeData s a v).run = s.run := rfl
@[simp] theorem writeData_cause (s : State) (a : Nat) (v : Word) : (writeData s a v).cause = s.cause := rfl
@[simp] theorem writeData_info (s : State) (a : Nat) (v : Word) : (writeData s a v).info = s.info := rfl
@[simp] theorem writeData_rs (s : State) (a : Nat) (v : Word) : (writeData s a v).rs = s.rs := rfl
@[simp] theorem writeData_data (s : State) (a : Nat) (v : Word) : (writeData s a v).data = Memory.write Config.dmemInit s.data a v := rfl
@[simp] theorem writeData_code (s : State) (a : Nat) (v : Word) : (writeData s a v).code = s.code := rfl
@[simp] theorem writeData_out (s : State) (a : Nat) (v : Word) : (writeData s a v).out = s.out := rfl
@[simp] theorem writeData_input (s : State) (a : Nat) (v : Word) : (writeData s a v).input = s.input := rfl
@[simp] theorem writeData_inpos (s : State) (a : Nat) (v : Word) : (writeData s a v).inpos = s.inpos := rfl

/-! ## State.raise -/

@[simp] theorem State.raise_pc (s : State) (c : Cause) (i : Word) : (s.raise c i).pc = s.pc := rfl
@[simp] theorem State.raise_sp (s : State) (c : Cause) (i : Word) : (s.raise c i).sp = s.sp := rfl
@[simp] theorem State.raise_sl (s : State) (c : Cause) (i : Word) : (s.raise c i).sl = s.sl := rfl
@[simp] theorem State.raise_run (s : State) (c : Cause) (i : Word) : (s.raise c i).run = false := rfl
@[simp] theorem State.raise_cause (s : State) (c : Cause) (i : Word) : (s.raise c i).cause = c := rfl
@[simp] theorem State.raise_info (s : State) (c : Cause) (i : Word) : (s.raise c i).info = i := rfl
@[simp] theorem State.raise_rs (s : State) (c : Cause) (i : Word) : (s.raise c i).rs = s.rs := rfl
@[simp] theorem State.raise_data (s : State) (c : Cause) (i : Word) : (s.raise c i).data = s.data := rfl
@[simp] theorem State.raise_code (s : State) (c : Cause) (i : Word) : (s.raise c i).code = s.code := rfl
@[simp] theorem State.raise_out (s : State) (c : Cause) (i : Word) : (s.raise c i).out = s.out := rfl
@[simp] theorem State.raise_input (s : State) (c : Cause) (i : Word) : (s.raise c i).input = s.input := rfl
@[simp] theorem State.raise_inpos (s : State) (c : Cause) (i : Word) : (s.raise c i).inpos = s.inpos := rfl

/-! ## emit -/

@[simp] theorem emit_pc (s : State) (v : Word) : (emit v s).pc = s.pc := rfl
@[simp] theorem emit_sp (s : State) (v : Word) : (emit v s).sp = s.sp := rfl
@[simp] theorem emit_sl (s : State) (v : Word) : (emit v s).sl = s.sl := rfl
@[simp] theorem emit_run (s : State) (v : Word) : (emit v s).run = s.run := rfl
@[simp] theorem emit_cause (s : State) (v : Word) : (emit v s).cause = s.cause := rfl
@[simp] theorem emit_info (s : State) (v : Word) : (emit v s).info = s.info := rfl
@[simp] theorem emit_rs (s : State) (v : Word) : (emit v s).rs = s.rs := rfl
@[simp] theorem emit_data (s : State) (v : Word) : (emit v s).data = s.data := rfl
@[simp] theorem emit_code (s : State) (v : Word) : (emit v s).code = s.code := rfl
@[simp] theorem emit_out (s : State) (v : Word) : (emit v s).out = s.out ++ [v] := rfl
@[simp] theorem emit_input (s : State) (v : Word) : (emit v s).input = s.input := rfl
@[simp] theorem emit_inpos (s : State) (v : Word) : (emit v s).inpos = s.inpos := rfl

/-! ## deliver -/

@[simp] theorem deliver_pc (s : State) (ws : List Word) : (deliver ws s).pc = s.pc := rfl
@[simp] theorem deliver_sp (s : State) (ws : List Word) : (deliver ws s).sp = s.sp := rfl
@[simp] theorem deliver_sl (s : State) (ws : List Word) : (deliver ws s).sl = s.sl := rfl
@[simp] theorem deliver_run (s : State) (ws : List Word) : (deliver ws s).run = s.run := rfl
@[simp] theorem deliver_cause (s : State) (ws : List Word) : (deliver ws s).cause = s.cause := rfl
@[simp] theorem deliver_info (s : State) (ws : List Word) : (deliver ws s).info = s.info := rfl
@[simp] theorem deliver_rs (s : State) (ws : List Word) : (deliver ws s).rs = s.rs := rfl
@[simp] theorem deliver_data (s : State) (ws : List Word) : (deliver ws s).data = s.data := rfl
@[simp] theorem deliver_code (s : State) (ws : List Word) : (deliver ws s).code = s.code := rfl
@[simp] theorem deliver_out (s : State) (ws : List Word) : (deliver ws s).out = s.out := rfl
@[simp] theorem deliver_input (s : State) (ws : List Word) : (deliver ws s).input = s.input ++ ws := rfl
@[simp] theorem deliver_inpos (s : State) (ws : List Word) : (deliver ws s).inpos = s.inpos := rfl

/-! ## recordStore -/

@[simp] theorem recordStore_pc (s : State) (a : Nat) : (recordStore a s).pc = s.pc := rfl
@[simp] theorem recordStore_sp (s : State) (a : Nat) : (recordStore a s).sp = s.sp := rfl
@[simp] theorem recordStore_sl (s : State) (a : Nat) : (recordStore a s).sl = BitVec.ofNat 16 (max s.sl.toNat a) := rfl
@[simp] theorem recordStore_run (s : State) (a : Nat) : (recordStore a s).run = s.run := rfl
@[simp] theorem recordStore_cause (s : State) (a : Nat) : (recordStore a s).cause = s.cause := rfl
@[simp] theorem recordStore_info (s : State) (a : Nat) : (recordStore a s).info = s.info := rfl
@[simp] theorem recordStore_rs (s : State) (a : Nat) : (recordStore a s).rs = s.rs := rfl
@[simp] theorem recordStore_data (s : State) (a : Nat) : (recordStore a s).data = s.data := rfl
@[simp] theorem recordStore_code (s : State) (a : Nat) : (recordStore a s).code = s.code := rfl
@[simp] theorem recordStore_out (s : State) (a : Nat) : (recordStore a s).out = s.out := rfl
@[simp] theorem recordStore_input (s : State) (a : Nat) : (recordStore a s).input = s.input := rfl
@[simp] theorem recordStore_inpos (s : State) (a : Nat) : (recordStore a s).inpos = s.inpos := rfl

/-! ## waitForInput -/

@[simp] theorem waitForInput_pc (s : State) : (waitForInput s).pc = s.pc - 1 := rfl
@[simp] theorem waitForInput_sp (s : State) : (waitForInput s).sp = s.sp := rfl
@[simp] theorem waitForInput_sl (s : State) : (waitForInput s).sl = s.sl := rfl
@[simp] theorem waitForInput_run (s : State) : (waitForInput s).run = s.run := rfl
@[simp] theorem waitForInput_cause (s : State) : (waitForInput s).cause = s.cause := rfl
@[simp] theorem waitForInput_info (s : State) : (waitForInput s).info = s.info := rfl
@[simp] theorem waitForInput_rs (s : State) : (waitForInput s).rs = s.rs := rfl
@[simp] theorem waitForInput_data (s : State) : (waitForInput s).data = s.data := rfl
@[simp] theorem waitForInput_code (s : State) : (waitForInput s).code = s.code := rfl
@[simp] theorem waitForInput_out (s : State) : (waitForInput s).out = s.out := rfl
@[simp] theorem waitForInput_input (s : State) : (waitForInput s).input = s.input := rfl
@[simp] theorem waitForInput_inpos (s : State) : (waitForInput s).inpos = s.inpos := rfl

/-! ## incrementPc -/

@[simp] theorem incrementPc_pc (s : State) : (incrementPc s).pc = s.pc + 1 := rfl
@[simp] theorem incrementPc_sp (s : State) : (incrementPc s).sp = s.sp := rfl
@[simp] theorem incrementPc_sl (s : State) : (incrementPc s).sl = s.sl := rfl
@[simp] theorem incrementPc_run (s : State) : (incrementPc s).run = s.run := rfl
@[simp] theorem incrementPc_cause (s : State) : (incrementPc s).cause = s.cause := rfl
@[simp] theorem incrementPc_info (s : State) : (incrementPc s).info = s.info := rfl
@[simp] theorem incrementPc_rs (s : State) : (incrementPc s).rs = s.rs := rfl
@[simp] theorem incrementPc_data (s : State) : (incrementPc s).data = s.data := rfl
@[simp] theorem incrementPc_code (s : State) : (incrementPc s).code = s.code := rfl
@[simp] theorem incrementPc_out (s : State) : (incrementPc s).out = s.out := rfl
@[simp] theorem incrementPc_input (s : State) : (incrementPc s).input = s.input := rfl
@[simp] theorem incrementPc_inpos (s : State) : (incrementPc s).inpos = s.inpos := rfl

end Sys2Proof.Machine
end

