-- ==== Sys2Proof/Laws/Operations.lean ====
section
/-! SUPPORT. What each shared operation can do, said once. Proofs about instructions cite these lemmas instead of
unfolding the operation. -/

namespace Sys2Proof.Machine

@[simp] theorem cap_eq : Config.cap = 65536 := rfl

/-! ## Reads of memory after an update -/

@[simp] theorem readData_setPc (s : State) (v : Pointer) (a : Nat) : readData (s.setPc v) a = readData s a := rfl
@[simp] theorem readData_setSp (s : State) (v : Pointer) (a : Nat) : readData (s.setSp v) a = readData s a := rfl
@[simp] theorem readData_setSl (s : State) (v : BitVec 16) (a : Nat) : readData (s.setSl v) a = readData s a := rfl
@[simp] theorem readData_setRs (s : State) (v : List Pointer) (a : Nat) : readData (s.setRs v) a = readData s a := rfl
@[simp] theorem readData_clearRun (s : State) (a : Nat) : readData s.clearRun a = readData s a := rfl
@[simp] theorem readData_raise (s : State) (c : Cause) (i : Word) (a : Nat) :
    readData (s.raise c i) a = readData s a := rfl
@[simp] theorem readData_emit (s : State) (v : Word) (a : Nat) : readData (emit v s) a = readData s a := rfl
@[simp] theorem readData_recordStore (s : State) (b a : Nat) : readData (recordStore b s) a = readData s a := rfl
@[simp] theorem readData_incrementPc (s : State) (a : Nat) : readData (incrementPc s) a = readData s a := rfl
@[simp] theorem readData_waitForInput (s : State) (a : Nat) : readData (waitForInput s) a = readData s a := rfl

theorem readData_writeData_other (s : State) {a b : Nat} (v : Word) (h : b ≠ a) :
    readData (writeData s a v) b = readData s b :=
  Memory.read_write_other s.data v h

theorem readData_writeData_same {s : State} (hs : DataWf s) (a : Nat) (v : Word) :
    readData (writeData s a v) a = v :=
  Memory.read_write_same hs v

theorem dataWf_writeData {s : State} (hs : DataWf s) {a : Nat} (v : Word) (ha : a < Config.cap) :
    DataWf (writeData s a v) :=
  Memory.wf_write hs v ha

/-! ## Pop -/

theorem pop_of_lt {s : State} (h : s.sp.toNat < Config.cap) :
    pop s = (readData s s.sp.toNat, s.setSp (s.sp + 1)) := by
  simp only [pop, if_pos h]

theorem pop_of_not_lt {s : State} (h : ¬ s.sp.toNat < Config.cap) : pop s = (0, s) := by
  simp only [pop, if_neg h]

/-- A pop changes `sp` and nothing else. -/
theorem pop_frame (s : State) : (pop s).2 = s.setSp (pop s).2.sp := by
  unfold pop; split <;> rfl

@[simp] theorem pop_pc (s : State) : (pop s).2.pc = s.pc := by rw [pop_frame]; rfl
@[simp] theorem pop_sl (s : State) : (pop s).2.sl = s.sl := by rw [pop_frame]; rfl
@[simp] theorem pop_run (s : State) : (pop s).2.run = s.run := by rw [pop_frame]; rfl
@[simp] theorem pop_cause (s : State) : (pop s).2.cause = s.cause := by rw [pop_frame]; rfl
@[simp] theorem pop_info (s : State) : (pop s).2.info = s.info := by rw [pop_frame]; rfl
@[simp] theorem pop_rs (s : State) : (pop s).2.rs = s.rs := by rw [pop_frame]; rfl
@[simp] theorem pop_data (s : State) : (pop s).2.data = s.data := by rw [pop_frame]; rfl
@[simp] theorem pop_code (s : State) : (pop s).2.code = s.code := by rw [pop_frame]; rfl
@[simp] theorem pop_out (s : State) : (pop s).2.out = s.out := by rw [pop_frame]; rfl
@[simp] theorem pop_input (s : State) : (pop s).2.input = s.input := by rw [pop_frame]; rfl
@[simp] theorem pop_inpos (s : State) : (pop s).2.inpos = s.inpos := by rw [pop_frame]; rfl
@[simp] theorem readData_pop (s : State) (a : Nat) : readData (pop s).2 a = readData s a := by rw [pop_frame]; rfl

/-- Where a pop leaves `sp`. -/
theorem pop_sp_toNat (s : State) :
    (pop s).2.sp.toNat = if s.sp.toNat < Config.cap then s.sp.toNat + 1 else s.sp.toNat := by
  unfold pop
  split
  · rename_i h
    simp only [State.setSp_sp, cap_eq] at *
    rw [BitVec.toNat_add]
    simp; omega
  · rfl

/-! ## Two pops -/

/-- Two pops change `sp` and nothing else. -/
theorem popTwo_frame (s : State) : (popTwo s).2.2 = s.setSp (popTwo s).2.2.sp := by
  unfold popTwo; dsimp only; rw [pop_frame, pop_frame s]; rfl

@[simp] theorem popTwo_pc (s : State) : (popTwo s).2.2.pc = s.pc := by rw [popTwo_frame]; rfl
@[simp] theorem popTwo_sl (s : State) : (popTwo s).2.2.sl = s.sl := by rw [popTwo_frame]; rfl
@[simp] theorem popTwo_run (s : State) : (popTwo s).2.2.run = s.run := by rw [popTwo_frame]; rfl
@[simp] theorem popTwo_cause (s : State) : (popTwo s).2.2.cause = s.cause := by rw [popTwo_frame]; rfl
@[simp] theorem popTwo_info (s : State) : (popTwo s).2.2.info = s.info := by rw [popTwo_frame]; rfl
@[simp] theorem popTwo_rs (s : State) : (popTwo s).2.2.rs = s.rs := by rw [popTwo_frame]; rfl
@[simp] theorem popTwo_data (s : State) : (popTwo s).2.2.data = s.data := by rw [popTwo_frame]; rfl
@[simp] theorem popTwo_code (s : State) : (popTwo s).2.2.code = s.code := by rw [popTwo_frame]; rfl
@[simp] theorem popTwo_out (s : State) : (popTwo s).2.2.out = s.out := by rw [popTwo_frame]; rfl
@[simp] theorem popTwo_input (s : State) : (popTwo s).2.2.input = s.input := by rw [popTwo_frame]; rfl
@[simp] theorem popTwo_inpos (s : State) : (popTwo s).2.2.inpos = s.inpos := by rw [popTwo_frame]; rfl
@[simp] theorem readData_popTwo (s : State) (a : Nat) : readData (popTwo s).2.2 a = readData s a := by
  rw [popTwo_frame]; rfl

theorem popTwo_sp (s : State) : (popTwo s).2.2.sp = (pop (pop s).2).2.sp := rfl

/-! ## Push -/

theorem pushTarget_toNat (s : State) : (pushTarget s).toNat = s.sp.toNat - 1 := by
  unfold pushTarget; omega

theorem push_of_collision {s : State} (v : Word) (h : s.sp.toNat ≤ s.sl.toNat + 1) :
    push v s = .error (s.raise .stackCollision (wrap ((s.sp.toNat : Int) - 1))) := by
  unfold push; rw [if_pos (by unfold pushTarget; omega)]; rfl

theorem push_of_exhausted {s : State} (v : Word) (h : s.sl.toNat + 1 < s.sp.toNat) (h' : Config.cap < s.sp.toNat) :
    push v s = .error (s.raise .stackExhausted (wrap ((s.sp.toNat : Int) - 1))) := by
  unfold push
  rw [if_neg (by unfold pushTarget; omega), if_pos (by unfold pushTarget; omega)]; rfl

theorem push_of_canPush {s : State} (v : Word) (h : CanPush s) :
    push v s = .ok ((writeData s (s.sp.toNat - 1) v).setSp (s.sp - 1)) := by
  obtain ⟨h1, h2⟩ := h
  unfold push
  rw [if_neg (by unfold pushTarget; omega), if_neg (by unfold pushTarget; omega), pushTarget_toNat]

/-- Everything a push can do. -/
theorem push_cases (v : Word) (s : State) :
    (s.sp.toNat ≤ s.sl.toNat + 1 ∧
      push v s = .error (s.raise .stackCollision (wrap ((s.sp.toNat : Int) - 1)))) ∨
    (s.sl.toNat + 1 < s.sp.toNat ∧ Config.cap < s.sp.toNat ∧
      push v s = .error (s.raise .stackExhausted (wrap ((s.sp.toNat : Int) - 1)))) ∨
    (CanPush s ∧ push v s = .ok ((writeData s (s.sp.toNat - 1) v).setSp (s.sp - 1))) := by
  by_cases h1 : s.sp.toNat ≤ s.sl.toNat + 1
  · exact .inl ⟨h1, push_of_collision v h1⟩
  · by_cases h2 : Config.cap < s.sp.toNat
    · exact .inr (.inl ⟨by omega, h2, push_of_exhausted v (by omega) h2⟩)
    · exact .inr (.inr ⟨⟨by omega, by omega⟩, push_of_canPush v ⟨by omega, by omega⟩⟩)

/-- Where a push that is carried out leaves `sp`. -/
theorem sp_sub_one_toNat {s : State} (h : CanPush s) : (s.sp - 1).toNat = s.sp.toNat - 1 := by
  obtain ⟨h1, h2⟩ := h
  rw [BitVec.toNat_sub]
  have := s.sp.isLt
  simp; omega

@[simp] theorem finish_ok (s : State) : finish (.ok s) = .next s := rfl
@[simp] theorem finish_error (s : State) : finish (.error s) = .next s := rfl

/-! ## The input port -/

theorem takeInput_of_some {s : State} {v : Word} (h : s.input[s.inpos]? = some v) :
    takeInput s = some (v, { s with inpos := s.inpos + 1 }) := by
  unfold takeInput; rw [h]

theorem takeInput_of_none {s : State} (h : s.input.length ≤ s.inpos) : takeInput s = none := by
  unfold takeInput; rw [List.getElem?_eq_none h]

/-- Taking a word happens exactly when one is available. -/
theorem takeInput_cases (s : State) :
    (s.input.length ≤ s.inpos ∧ takeInput s = none) ∨
    (s.inpos < s.input.length ∧
      ∃ v, s.input[s.inpos]? = some v ∧ takeInput s = some (v, { s with inpos := s.inpos + 1 })) := by
  by_cases h : s.input.length ≤ s.inpos
  · exact .inl ⟨h, takeInput_of_none h⟩
  · have h' : s.inpos < s.input.length := by omega
    have hv := List.getElem?_eq_getElem h'
    exact .inr ⟨h', _, hv, takeInput_of_some hv⟩

/-! ## The cycle -/

theorem step_of_stopped {s : State} (h : s.run = false) : step s = .fault .stopped := by
  simp only [step, cycle, h, if_true]

/-- Everything a step of a running machine can do. -/
theorem step_cases {s : State} (h : s.run = true) :
    (Config.cap ≤ s.pc.toNat ∧ step s = .next (s.raise .pcOutOfRange (pointerInfo s.pc))) ∨
    (∃ i, Runs i s ∧ step s = exec i (incrementPc s)) ∨
    (s.pc.toNat < Config.cap ∧ (∃ e, decode (fetchWord s) = .error e) ∧
      step s = .next (raiseUnrecognized (fetchWord s) (incrementPc s))) := by
  have hr : ¬ s.run = false := by simp [h]
  by_cases hpc : Config.cap ≤ s.pc.toNat
  · exact .inl ⟨hpc, by simp only [step, cycle, if_neg hr, if_pos hpc]⟩
  · cases hd : decode (fetchWord s) with
    | ok i => exact .inr (.inl ⟨i, ⟨h, by omega, hd⟩, by simp only [step, cycle, if_neg hr, if_neg hpc, hd]⟩)
    | error e =>
      exact .inr (.inr ⟨by omega, ⟨e, rfl⟩, by simp only [step, cycle, if_neg hr, if_neg hpc, hd]⟩)

theorem incrementPc_pc_toNat {s : State} (h : s.pc.toNat < Config.cap) :
    (incrementPc s).pc.toNat = s.pc.toNat + 1 := by
  simp only [incrementPc_pc, cap_eq] at *
  rw [BitVec.toNat_add]
  simp; omega

/-- The wait of READ takes the increment back. -/
@[simp] theorem waitForInput_incrementPc (s : State) : waitForInput (incrementPc s) = s := by
  simp [waitForInput, incrementPc, State.setPc]

end Sys2Proof.Machine
end

