-- ==== Sys2Proof/Laws/Exec.lean ====
section
/-! SUPPORT. What an instruction can do, said once: every next state of `exec` is one of the named cases of `Effect`. -/

namespace Sys2Proof.Machine

/-- What a finished push can do. -/
theorem finish_push_cases {v : Word} {s t : State} (h : finish (push v s) = .next t) :
    (s.sp.toNat ≤ s.sl.toNat + 1 ∧ t = s.raise .stackCollision (wrap ((s.sp.toNat : Int) - 1))) ∨
    (s.sl.toNat + 1 < s.sp.toNat ∧ Config.cap < s.sp.toNat ∧
      t = s.raise .stackExhausted (wrap ((s.sp.toNat : Int) - 1))) ∨
    (CanPush s ∧ t = (writeData s (s.sp.toNat - 1) v).setSp (s.sp - 1)) := by
  rcases push_cases v s with ⟨h1, e⟩ | ⟨h1, h2, e⟩ | ⟨h1, e⟩ <;> rw [e] at h <;> cases h
  · exact .inl ⟨h1, rfl⟩
  · exact .inr (.inl ⟨h1, h2, rfl⟩)
  · exact .inr (.inr ⟨h1, rfl⟩)

/-- The shapes of the instructions that end in a push. -/
inductive PushShape where
  /-- Nothing is popped: PUSH, LVALUE, RVALUE. -/
  | plain
  /-- One operand is popped: NEG, NOT, SHL, SHR, SAR. -/
  | unary
  /-- Two operands are popped. -/
  | binary
  /-- COPY, READ, and the instructions that push nothing. -/
  | other
  deriving DecidableEq, Repr

/-- The shape of an instruction. -/
def pushShape : Instr → PushShape
  | .push _ | .rvalue _ | .lvalue _ => .plain
  | .neg | .not | .shl | .shr | .sar => .unary
  | .add | .sub | .mpy | .div | .mod | .orb | .andb | .xorb => .binary
  | .or | .and | .eq | .ne | .gt | .ge | .lt | .le => .binary
  | .halt | .pop | .sto | .copy | .label | .goto _ | .gofalse _ | .gotrue _ | .print | .read | .gosub _ | .ret => .other

/-- The next states an instruction can have. -/
inductive Effect (s : State) : Instr → State → Prop
  | halt : Effect s .halt s.clearRun
  | pushes {i : Instr} {t : State} (v : Word) (hi : pushShape i = .plain) (h : finish (push v s) = .next t) :
      Effect s i t
  | pops : Effect s .pop (pop s).2
  | stores (a : Nat) (ha : storeAddress (popTwo s).1 = some a) :
      Effect s .sto (recordStore a (writeData (popTwo s).2.2 a (popTwo s).2.1))
  | storeTrap (ha : storeAddress (popTwo s).1 = none) :
      Effect s .sto ((popTwo s).2.2.raise .dataAddressOutOfRange (popTwo s).1)
  | copyFirst {t : State} (hc : ¬ CanPush (pop s).2) (h : finish (push (pop s).1 (pop s).2) = .next t) :
      Effect s .copy t
  | copySecond {t : State} (hc : CanPush (pop s).2)
      (h : finish (push (pop s).1
        ((writeData (pop s).2 ((pop s).2.sp.toNat - 1) (pop s).1).setSp ((pop s).2.sp - 1))) = .next t) :
      Effect s .copy t
  | unary {i : Instr} {t : State} (v : Word) (hi : pushShape i = .unary) (h : finish (push v (pop s).2) = .next t) :
      Effect s i t
  | binary {i : Instr} {t : State} (v : Word) (hi : pushShape i = .binary)
      (hd : i = .div ∨ i = .mod → (popTwo s).2.1 ≠ 0) (h : finish (push v (popTwo s).2.2) = .next t) :
      Effect s i t
  | divideTrap {i : Instr} (hi : i = .div ∨ i = .mod) (h0 : (popTwo s).2.1 = 0) :
      Effect s i ((popTwo s).2.2.raise .divideByZero (popTwo s).1)
  | label : Effect s .label s
  | goto (n : Operand) : Effect s (.goto n) (s.setPc (codeAddress n))
  | branches {i : Instr} (n : Operand) (hi : i = .gofalse n ∨ i = .gotrue n) :
      Effect s i ((pop s).2.setPc (codeAddress n))
  | fallsThrough {i : Instr} (n : Operand) (hi : i = .gofalse n ∨ i = .gotrue n) : Effect s i (pop s).2
  | prints : Effect s .print (emit (pop s).1 (pop s).2)
  | readWaits (h : s.input.length ≤ s.inpos) : Effect s .read (waitForInput s)
  | reads {t : State} (v : Word) (hv : s.input[s.inpos]? = some v)
      (h : finish (push v { s with inpos := s.inpos + 1 }) = .next t) : Effect s .read t
  | gosub (n : Operand) : Effect s (.gosub n) ((s.setRs (s.rs ++ [s.pc])).setPc (codeAddress n))
  | ret (a : Pointer) (h : s.rs.getLast? = some a) : Effect s .ret ((s.setRs s.rs.dropLast).setPc a)
  | retTrap (h : s.rs.getLast? = none) : Effect s .ret (s.raise .returnStackEmpty (pointerInfo s.pc))

/-- With `CAP` = 65536 every operand is a legal data address. -/
theorem exec_rvalue (n : Operand) (s : State) : exec (.rvalue n) s = finish (push (readData s n.toNat) s) := by
  have h : ¬ Config.cap ≤ dataAddress n := Nat.not_le.2 n.isLt
  show rvalueWithin _ _ _ = _
  rw [rvalueWithin, if_neg h]
  rfl

theorem branchOn_effect {i : Instr} {f : Word → Bool} {n : Operand} {s t : State}
    (hi : i = .gofalse n ∨ i = .gotrue n) (h : branchOn f n s = .next t) : Effect s i t := by
  unfold branchOn at h
  split at h <;> cases h
  · exact .branches n hi
  · exact .fallsThrough n hi

theorem divideOp_effect {i : Instr} {f : Word → Word → Word} {s t : State} (hi : i = .div ∨ i = .mod)
    (h : divideOp f s = .next t) : Effect s i t := by
  unfold divideOp at h
  split at h
  · rename_i h0; cases h; exact .divideTrap hi h0
  · rename_i h0
    exact .binary _ (by rcases hi with rfl | rfl <;> rfl) (fun _ => h0) h

theorem execCopy_effect {s t : State} (h : execCopy s = .next t) : Effect s .copy t := by
  unfold execCopy at h
  rcases push_cases (pop s).1 (pop s).2 with ⟨h1, e⟩ | ⟨h1, h2, e⟩ | ⟨h1, e⟩
  · refine .copyFirst (fun hc => absurd hc.1 (by omega)) ?_
    rw [e] at h ⊢; exact h
  · refine .copyFirst (fun hc => absurd hc.2 (by omega)) ?_
    rw [e] at h ⊢; exact h
  · rw [e] at h; exact .copySecond h1 h

theorem execRead_effect {s t : State} (h : execRead s = .next t) : Effect s .read t := by
  unfold execRead at h
  rcases takeInput_cases s with ⟨h1, e⟩ | ⟨_, v, hv, e⟩ <;> rw [e] at h
  · cases h; exact .readWaits h1
  · exact .reads v hv h

/-- Every next state of an instruction is one of the named effects. -/
theorem exec_effect {i : Instr} {s t : State} (h : exec i s = .next t) : Effect s i t := by
  cases i with
  | halt => cases h; exact .halt
  | push n => exact .pushes _ rfl h
  | lvalue n => exact .pushes _ rfl h
  | rvalue n => rw [exec_rvalue] at h; exact .pushes _ rfl h
  | pop => cases h; exact .pops
  | sto =>
    change execSto s = _ at h
    unfold execSto at h
    split at h <;> cases h
    · exact .storeTrap (by assumption)
    · exact .stores _ (by assumption)
  | copy => exact execCopy_effect h
  | neg | not | shl | shr | sar => exact .unary _ rfl h
  | add | sub | mpy | or | and | eq | ne | gt | ge | lt | le | orb | andb | xorb =>
    exact .binary _ rfl (by simp) h
  | div => exact divideOp_effect (.inl rfl) h
  | mod => exact divideOp_effect (.inr rfl) h
  | label => cases h; exact .label
  | goto n => cases h; exact .goto n
  | gofalse n => exact branchOn_effect (f := fun v => !isNonzero v) (.inl rfl) h
  | gotrue n => exact branchOn_effect (f := isNonzero) (.inr rfl) h
  | print => cases h; exact .prints
  | read => exact execRead_effect h
  | gosub n => cases h; exact .gosub n
  | ret =>
    change execRet s = _ at h
    unfold execRet at h
    split at h <;> cases h
    · exact .retTrap (by assumption)
    · exact .ret _ (by assumption)

end Sys2Proof.Machine
end

