-- ==== Sys2Proof/Laws/PerInstr.lean ====
section
/-! SUPPORT. The family `EncodedFields`: the word the encoder writes for an instruction has the instruction's opcode
number above its operand (spec/30_encoding.md R60, R64). -/

namespace Sys2Proof.Laws.EncodedFields

/-- The two fields of the encoder's word. -/
def Statement (i : Instr) : Prop :=
  opcodeField (encode i) = opcodeNumber i ∧ operandField (encode i) = operandOf i

theorem of_append (i : Instr) : Statement i :=
  ⟨opcodeField_append _ _, operandField_append _ _⟩

theorem halt : Statement .halt := of_append _
theorem push (n : Operand) : Statement (.push n) := of_append _
theorem rvalue (n : Operand) : Statement (.rvalue n) := of_append _
theorem lvalue (n : Operand) : Statement (.lvalue n) := of_append _
theorem pop : Statement .pop := of_append _
theorem sto : Statement .sto := of_append _
theorem copy : Statement .copy := of_append _
theorem add : Statement .add := of_append _
theorem sub : Statement .sub := of_append _
theorem mpy : Statement .mpy := of_append _
theorem div : Statement .div := of_append _
theorem mod : Statement .mod := of_append _
theorem neg : Statement .neg := of_append _
theorem not : Statement .not := of_append _
theorem or : Statement .or := of_append _
theorem and : Statement .and := of_append _
theorem eq : Statement .eq := of_append _
theorem ne : Statement .ne := of_append _
theorem gt : Statement .gt := of_append _
theorem ge : Statement .ge := of_append _
theorem lt : Statement .lt := of_append _
theorem le : Statement .le := of_append _
theorem label : Statement .label := of_append _
theorem goto (n : Operand) : Statement (.goto n) := of_append _
theorem gofalse (n : Operand) : Statement (.gofalse n) := of_append _
theorem gotrue (n : Operand) : Statement (.gotrue n) := of_append _
theorem print : Statement .print := of_append _
theorem read : Statement .read := of_append _
theorem gosub (n : Operand) : Statement (.gosub n) := of_append _
theorem ret : Statement .ret := of_append _
theorem orb : Statement .orb := of_append _
theorem andb : Statement .andb := of_append _
theorem xorb : Statement .xorb := of_append _
theorem shl : Statement .shl := of_append _
theorem shr : Statement .shr := of_append _
theorem sar : Statement .sar := of_append _

end Sys2Proof.Laws.EncodedFields
end

