-- ==== Sys2Proof/Laws/WellFormed.lean ====
section
/-! SUPPORT. In this hardware every instruction is well formed (spec/20_memory.md R41, R45). -/

namespace Sys2Proof

theorem Instr.wellFormed_of_operand (n : Operand) : n.toNat < Config.cap := n.isLt

theorem Instr.wellFormed_all (i : Instr) : i.wellFormed = true := by
  cases i <;> first | rfl | exact decide_eq_true (wellFormed_of_operand _)

end Sys2Proof
end

