-- ==== Sys2Proof/Tests/Slice0.lean ====
section
/-! SUPPORT. Tests. Expected results are those of spec/95_test_vectors.md and of the examples in the instruction rules. -/

namespace Sys2Proof.Tests

open Sys2Proof Sys2Proof.Machine

/-! ## Helpers -/

/-- Cells of a stack written bottom to top, the bottom at address `a`. -/
def cells (a : Nat) : List Word → State → State
  | [], s => s
  | w :: ws, s => cells (a - 1) ws (writeData s a w)

/-- The reset state with the given stack, bottom to top, and high-water mark. -/
def stacked (ws : List Word) (sl : BitVec 16 := 0) : State :=
  (cells 65535 ws State.reset).setSp (BitVec.ofNat 17 (65536 - ws.length)) |>.setSl sl

/-- The reset state with code words from address 0 on. -/
def coded (ws : List Word) : State := State.start (imageFrom 0 ws) []

/-- The operand stack, bottom to top. -/
def stackOf (s : State) : List Word := (List.range (65536 - s.sp.toNat)).map fun k => readData s (65535 - k)

/-- The next state of an outcome. -/
def after (o : Host.Outcome State Fault Refusal) : Option State :=
  match o with
  | .next t => some t
  | .fault _ => none
  | .refused _ => none

/-- The operand stack an instruction leaves. -/
def leaves (i : Instr) (s : State) : Option (List Word) := (after (exec i s)).map stackOf

/-- The status an instruction leaves: run, cause code, info. -/
def status (o : Host.Outcome State Fault Refusal) : Option (Bool × Nat × Nat) :=
  (after o).map fun t => (t.run, t.cause.code.toNat, t.info.toNat)


/-! ## Decoding: every constructor's word, written out from R64 (`0000000000000001` above `0000000000101010`, …) -/

theorem test_decode_halt_and_stack :
    ([0b0000000000000000#16 ++ 0b0000000000000000#16,
      0b0000000000000001#16 ++ 0b0000000000101010#16,
      0b0000000000000010#16 ++ 0b1111111111111111#16,
      0b0000000000000011#16 ++ 0b0000000000001010#16,
      0b0000000000000100#16 ++ 0b0000000000000000#16,
      0b0000000000000101#16 ++ 0b0000000000000000#16,
      0b0000000000000110#16 ++ 0b0000000000000000#16] : List Word).map (fun w => (decode w).toOption) =
    [some .halt, some (.push 42), some (.rvalue 65535), some (.lvalue 10), some .pop, some .sto, some .copy] := by decide

theorem test_decode_arithmetic :
    ([0b0000000000000111#16 ++ 0b0000000000000000#16,
      0b0000000000001000#16 ++ 0b0000000000000000#16,
      0b0000000000001001#16 ++ 0b0000000000000000#16,
      0b0000000000001010#16 ++ 0b0000000000000000#16,
      0b0000000000001011#16 ++ 0b0000000000000000#16,
      0b0000000000001100#16 ++ 0b0000000000000000#16] : List Word).map (fun w => (decode w).toOption) =
    [some .add, some .sub, some .mpy, some .div, some .mod, some .neg] := by decide

theorem test_decode_logic_and_comparison :
    ([0b0000000000001101#16 ++ 0b0000000000000000#16,
      0b0000000000001110#16 ++ 0b0000000000000000#16,
      0b0000000000001111#16 ++ 0b0000000000000000#16,
      0b0000000000010000#16 ++ 0b0000000000000000#16,
      0b0000000000010001#16 ++ 0b0000000000000000#16,
      0b0000000000010010#16 ++ 0b0000000000000000#16,
      0b0000000000010011#16 ++ 0b0000000000000000#16,
      0b0000000000010100#16 ++ 0b0000000000000000#16,
      0b0000000000010101#16 ++ 0b0000000000000000#16] : List Word).map (fun w => (decode w).toOption) =
    [some .not, some .or, some .and, some .eq, some .ne, some .gt, some .ge, some .lt, some .le] := by decide

theorem test_decode_control :
    ([0b0000000000010110#16 ++ 0b0000000000000000#16,
      0b0000000000010111#16 ++ 0b1111111111111111#16,
      0b0000000000011000#16 ++ 0b0000000000001000#16,
      0b0000000000011001#16 ++ 0b0000000000001100#16,
      0b0000000000011010#16 ++ 0b0000000000000000#16,
      0b0000000000011011#16 ++ 0b0000000000000000#16,
      0b0000000000011100#16 ++ 0b0000000000000100#16,
      0b0000000000011101#16 ++ 0b0000000000000000#16] : List Word).map (fun w => (decode w).toOption) =
    [some .label, some (.goto 65535), some (.gofalse 8), some (.gotrue 12), some .print, some .read, some (.gosub 4), some .ret] := by decide

theorem test_decode_bitwise_and_shift :
    ([0b0000000000011110#16 ++ 0b0000000000000000#16,
      0b0000000000011111#16 ++ 0b0000000000000000#16,
      0b0000000000100000#16 ++ 0b0000000000000000#16,
      0b0000000000100001#16 ++ 0b0000000000000000#16,
      0b0000000000100010#16 ++ 0b0000000000000000#16,
      0b0000000000100011#16 ++ 0b0000000000000000#16] : List Word).map (fun w => (decode w).toOption) =
    [some .orb, some .andb, some .xorb, some .shl, some .shr, some .sar] := by decide

/-- 95_test_vectors.md 2.1: the operand of HALT and of SAR is ignored. -/
theorem test_decode_ignores_operand :
    decode 0x00000007 = .ok .halt ∧ decode 0x0023FFFF = .ok .sar := by decide

/-- 95_test_vectors.md 2.1, S11: opcodes 36, 32768 and 65535 are unrecognized. -/
theorem test_decode_rejects :
    decode 0x00240000 = .error (.unrecognizedOpcode 36) ∧ decode 0x80000000 = .error (.unrecognizedOpcode 32768) ∧
    decode 0xFFFFFFFF = .error (.unrecognizedOpcode 65535) := by decide

/-- 95_test_vectors.md P1 as a program file: `00 01 00 2A` is PUSH 42; a file cut short is rejected. -/
theorem test_decode_bytes :
    decodeBytes [0x00, 0x01, 0x00, 0x2A, 0x00] = .ok (.push 42, [0x00]) ∧
    decodeBytes [0x00, 0x1A, 0x00] = .error .truncatedWord := by decide

theorem test_decode_table_word : decodeTableWord 32 0x00180008 = some (.gofalse 8) ∧ decodeTableWord 32 0x00240000 = none := by
  decide

/-! ## Well-formedness: an ill-formed term for each check, in a build of 16 words -/

theorem test_illformed_rvalue : (Instr.rvalue 16).wellFormedWithin 16 = false := by decide
theorem test_illformed_goto : (Instr.goto 16).wellFormedWithin 16 = false := by decide
theorem test_illformed_gofalse : (Instr.gofalse 16).wellFormedWithin 16 = false := by decide
theorem test_illformed_gotrue : (Instr.gotrue 16).wellFormedWithin 16 = false := by decide
theorem test_illformed_gosub : (Instr.gosub 16).wellFormedWithin 16 = false := by decide
theorem test_wellformed_at_the_bound :
    (Instr.rvalue 15).wellFormedWithin 16 = true ∧ (Instr.push 16).wellFormedWithin 16 = true := by decide

/-! ## Stack and storage (95_test_vectors.md 2.4) -/

theorem test_push_zero_extends : leaves (.push 65535) State.reset = some [0x0000FFFF] := by decide
theorem test_push_deepest : (after (exec (.push 7) (State.reset.setSp 2))).map (fun t => (t.sp.toNat, readData t 1)) =
    some (1, 7) := by decide
theorem test_lvalue : leaves (.lvalue 10) State.reset = some [10] := by decide
theorem test_rvalue_reads_live_stack : leaves (.rvalue 65535) (stacked [9]) = some [9, 9] := by decide
theorem test_rvalue_reads_stale_cell : leaves (.rvalue 65534) (writeData (stacked [9]) 65534 77) = some [9, 77] := by
  decide
theorem test_pop_keeps_the_cell : (after (exec .pop (stacked [4, 5]))).map (fun t => (stackOf t, readData t 65534)) =
    some ([4], 5) := by decide
theorem test_pop_empty : after (exec .pop State.reset) = some State.reset := by decide
theorem test_sto_over_live_stack : (after (exec .sto (stacked [1, 2, 65535, 8]))).map (fun t => (stackOf t, t.sl.toNat)) =
    some ([8, 2], 65535) := by decide
theorem test_sto_negative_address : status (exec .sto (stacked [0xFFFFFFFF, 1])) = some (false, 7, 0xFFFFFFFF) := by decide
theorem test_copy_empty : leaves .copy State.reset = some [0, 0] := by decide
theorem test_copy_second_push : (after (exec .copy (stacked [3] 65534))).map (fun t => (stackOf t, t.cause, t.info)) =
    some ([3], .stackCollision, 65534) := by decide

/-! ## Arithmetic (95_test_vectors.md 2.5) -/

theorem test_add_wraps : leaves .add (stacked [2147483647, 1]) = some [0x80000000] := by decide
theorem test_sub_order : leaves .sub (stacked [7, 3]) = some [4] := by decide
theorem test_sub_underflow : leaves .sub (stacked [5]) = some [0xFFFFFFFB] := by decide
theorem test_mpy_wraps : leaves .mpy (stacked [46341, 46341]) = some [0x80001219] := by decide
theorem test_div_truncates : leaves .div (stacked [0xFFFFFFF9, 2]) = some [0xFFFFFFFD] := by decide
theorem test_div_minimum : leaves .div (stacked [0x80000000, 0xFFFFFFFF]) = some [0x80000000] := by decide
theorem test_mod_sign : leaves .mod (stacked [0xFFFFFFF9, 2]) = some [0xFFFFFFFF] := by decide
theorem test_mod_by_zero : status (exec .mod (stacked [7, 0])) = some (false, 5, 7) := by decide
theorem test_neg_minimum : leaves .neg (stacked [0x80000000]) = some [0x80000000] := by decide

/-! ## Logic and comparison (95_test_vectors.md 2.6, S7) -/

theorem test_not : leaves .not (stacked [5]) = some [0xFFFFFFFA] := by decide
theorem test_or_is_logical : leaves .or (stacked [2, 4]) = some [1] := by decide
theorem test_and_is_logical : leaves .and (stacked [2, 4]) = some [1] := by decide
theorem test_eq_all_bits : leaves .eq (stacked [65535, 0xFFFFFFFF]) = some [0] := by decide
theorem test_ne : leaves .ne (stacked [3, 5]) = some [1] := by decide
theorem test_gt_order : leaves .gt (stacked [3, 5]) = some [0] ∧ leaves .gt (stacked [5, 3]) = some [1] := by decide
theorem test_gt_signed : leaves .gt (stacked [0xFFFFFFFF, 1]) = some [0] := by decide
theorem test_ge : leaves .ge (stacked [3, 3]) = some [1] ∧ leaves .ge (stacked [3, 5]) = some [0] := by decide
theorem test_lt_extremes : leaves .lt (stacked [0x80000000, 2147483647]) = some [1] := by decide
theorem test_le : leaves .le (stacked [3, 3]) = some [1] ∧ leaves .le (stacked [5, 3]) = some [0] := by decide

/-! ## Branches (95_test_vectors.md 2.7); `pc` is already incremented to 3 -/

theorem test_label : after (exec .label (stacked [1])) = some (stacked [1]) := by decide
theorem test_goto : (after (exec (.goto 65535) State.reset)).map (fun t => t.pc.toNat) = some 65535 := by decide
theorem test_gofalse_empty_taken : (after (exec (.gofalse 8) (State.reset.setPc 3))).map (fun t => t.pc.toNat) = some 8 := by
  decide
theorem test_gofalse_pops : (after (exec (.gofalse 8) ((stacked [0xFFFFFFFF]).setPc 3))).map (fun t => (t.pc.toNat, stackOf t)) =
    some (3, []) := by decide
theorem test_gotrue_taken : (after (exec (.gotrue 8) ((stacked [0xFFFFFFFF]).setPc 3))).map (fun t => (t.pc.toNat, stackOf t)) =
    some (8, []) := by decide
theorem test_gotrue_not_taken : (after (exec (.gotrue 8) ((stacked [0]).setPc 3))).map (fun t => (t.pc.toNat, stackOf t)) =
    some (3, []) := by decide

/-! ## Ports (95_test_vectors.md 2.8) -/

theorem test_print_empty : (after (exec .print State.reset)).map (fun t => (t.out, t.sp.toNat)) = some ([0], 65536) := by decide
theorem test_print : (after (exec .print (stacked [0xFFFFFFFB]))).map (fun t => (t.out, stackOf t)) = some ([0xFFFFFFFB], []) := by
  decide
theorem test_read : (after (exec .read (deliver [0x80000000, 5] State.reset))).map (fun t => (stackOf t, t.inpos)) =
    some ([0x80000000], 1) := by decide
theorem test_read_collision_consumes :
    (after (exec .read (deliver [17] ((State.reset.setSp 101).setSl 100)))).map (fun t => (t.cause, t.info, t.inpos, t.sp.toNat)) =
    some (.stackCollision, 100, 1, 101) := by decide

/-! ## Subroutines (95_test_vectors.md 2.9) -/

theorem test_gosub : (after (exec (.gosub 4) (State.reset.setPc 2))).map (fun t => (t.rs, t.pc.toNat)) = some ([2], 4) := by
  decide
theorem test_ret_nests : (after (exec .ret (State.reset.setRs [2, 9]))).map (fun t => (t.rs, t.pc.toNat)) = some ([2], 9) := by
  decide

/-! ## Bitwise operations and shifts (95_test_vectors.md 2.10) -/

theorem test_orb : leaves .orb (stacked [2, 4]) = some [6] := by decide
theorem test_andb : leaves .andb (stacked [0x00FF, 0x0FF0]) = some [0x00F0] := by decide
theorem test_xorb : leaves .xorb (stacked [0x0F0F, 0x00FF]) = some [0x0FF0] := by decide
theorem test_shl_drops_high_bit : leaves .shl (stacked [0xFFFFFFFF]) = some [0xFFFFFFFE] := by decide
theorem test_shr_is_unsigned : leaves .shr (stacked [0xFFFFFFFB]) = some [0x7FFFFFFD] := by decide
theorem test_sar_rounds_down : leaves .sar (stacked [0xFFFFFFF9]) = some [0xFFFFFFFC] := by decide
theorem test_sar_copies_the_sign : leaves .sar (stacked [0x80000000]) = some [0xC0000000] := by decide

/-! ## The cycle (95_test_vectors.md 2.1, 2.2, S9) -/

theorem test_empty_program_halts : (after (step State.reset)).map (fun t => (t.run, t.cause, t.pc.toNat, t.sp.toNat)) =
    some (false, .none, 1, 65536) := by decide
theorem test_unrecognized_at_reset : status (step (coded [0x00240007])) = some (false, 4, 36) := by decide
theorem test_ret_at_reset : status (step (coded [0x001D0000])) = some (false, 3, 1) := by decide
theorem test_fetch_past_the_end : status (step (State.reset.setPc 65536)) = some (false, 6, 65536) := by decide
theorem test_label_at_65535 :
    (after (step ((State.reset.setPc 65535).withFetchWord 32 0x0016ABCD))).map (fun t => (t.run, t.pc.toNat)) =
    some (true, 65536) := by decide
theorem test_read_waits : after (step (coded [0x001B0000])) = some (coded [0x001B0000]) := by decide

/-- 95_test_vectors.md P1 as a file. -/
theorem test_load_p1 : loadFile [0x00, 0x01, 0x00, 0x2A, 0x00, 0x1A, 0x00, 0x00, 0x00, 0x00, 0x00, 0x00] =
    .ok [(0, 0x0001002A), (1, 0x001A0000)] := by decide

/-! ## Witnesses: for each statement with hypotheses, a state and operands that meet them, one for each clause -/

/-- The reset state with the given pointers. -/
def pointers (sp : Pointer) (sl : BitVec 16) : State := (State.reset.setSp sp).setSl sl

/-- The invariant of a state that differs from reset only in code, input, `sp` and `pc`. -/
theorem inv_running (code : Memory) (input : List Word) (pc sp : Pointer) (sl : BitVec 16)
    (h : 1 ≤ sp.toNat ∧ sp.toNat ≤ Config.cap ∧ pc.toNat ≤ Config.cap) (hc : Memory.wf Config.codeFill code = true) :
    Inv (((State.start code input).setPc pc).setSp sp |>.setSl sl) :=
  ⟨h.1, h.2.1, h.2.2, (fun _ hp => by cases hp), (fun hn => absurd rfl hn), (fun _ => rfl), Nat.zero_le _, rfl, hc⟩

theorem witness_DecodeInvertsEncode : (Instr.goto 65535).wellFormed = true ∧ Instr.halt.wellFormed = true := by decide
theorem witness_DecodedWordIsAnEncoding :
    decode 0x0017FFFF = .ok (.goto 65535) ∧ usesOperand (.goto 65535) = true ∧ decode 0x0023FFFF = .ok .sar := by decide
theorem witness_RecognizedOpcodesAreBelow36 :
    (opcodeField 0x0023FFFF).toNat < 36 ∧ 36 ≤ (opcodeField 0x00240000).toNat := by decide
theorem witness_IgnoredOperandDoesNotMatter : decode 0x00230000 = .ok .sar ∧ usesOperand .sar = false := by decide
theorem witness_LoaderPlacesWordsFromAddressZero :
    ([] : List Word).length ≤ Config.cap ∧ (List.replicate 65536 (1 : Word)).length ≤ Config.cap :=
  ⟨by decide, by rw [List.length_replicate]; decide⟩
theorem witness_LoaderRejectsBadFiles :
    ([1, 2, 3] : List Byte).length % 4 ≠ 0 ∧ (List.replicate 262148 (0 : Byte)).length % 4 = 0 ∧
    4 * Config.cap < (List.replicate 262148 (0 : Byte)).length ∧
    (List.replicate 262149 (0 : Byte)).length % 4 ≠ 0 ∧ 4 * Config.cap < (List.replicate 262149 (0 : Byte)).length :=
  ⟨by decide, by rw [List.length_replicate], by rw [List.length_replicate]; decide,
    by rw [List.length_replicate]; decide, by rw [List.length_replicate]; decide⟩
theorem witness_ResetSatisfiesTheInvariant :
    Memory.wf Config.codeFill [] = true ∧ Memory.wf Config.codeFill [(0, 0x0001002A), (65535, 0x001A0000)] = true := by decide
theorem witness_CanonicalMemoriesWithEqualReadsAreEqual :
    Memory.wf 0 [(0, 1), (65535, 7)] = true ∧
    ∀ a, Memory.read 0 [(0, 1), (65535, 7)] a = Memory.read 0 [(0, 1), (65535, 7)] a := ⟨by decide, fun _ => rfl⟩
theorem witness_PopTakesTheTopOrZero :
    (pointers 65535 0).sp.toNat < Config.cap ∧ Config.cap ≤ (pointers 65536 0).sp.toNat := by decide
theorem witness_PushChecksThenWrites :
    DataWf (pointers 1 0) ∧ (pointers 1 0).sp.toNat ≤ (pointers 1 0).sl.toNat + 1 ∧
    ((pointers 65537 0).sl.toNat + 1 < (pointers 65537 0).sp.toNat ∧ Config.cap < (pointers 65537 0).sp.toNat) ∧
    CanPush (pointers 2 0) ∧ CanPush (pointers 65536 65534) := by decide
theorem witness_OnlyStoresRaiseTheHighWaterMark :
    65535 < Config.cap ∧ (popTwo (stacked [65535, 8])).1.toInt = ((65535 : Nat) : Int) ∧ Instr.label ≠ .sto ∧
    ∃ t, exec .label State.reset = .next t := ⟨by decide, by decide, by decide, _, rfl⟩
theorem witness_RightOperandIsPoppedFirst :
    (pointers 65534 0).sp.toNat + 1 < Config.cap ∧ (pointers 65535 0).sp.toNat + 1 = Config.cap ∧
    Config.cap ≤ (pointers 65536 0).sp.toNat := by decide
theorem witness_PushAndLvaluePushTheOperand :
    DataWf (pointers 2 0) ∧ CanPush (pointers 2 0) ∧ DataWf (pointers 65536 65534) ∧ CanPush (pointers 65536 65534) := by decide
theorem witness_RvaluePushesTheCell : DataWf (stacked [9]) ∧ CanPush (stacked [9]) ∧ readData (stacked [9]) 65535 = 9 := by
  decide
theorem witness_PopMovesOnlyTheStackPointer :
    (pointers 65535 0).sp.toNat < Config.cap ∧ Config.cap ≤ (pointers 65536 0).sp.toNat := by decide
theorem witness_StoStoresAndRaisesTheHighWaterMark :
    DataWf (stacked [65535, 8]) ∧ (popTwo (stacked [65535, 8])).1.toInt = ((65535 : Nat) : Int) ∧ 65535 < Config.cap ∧
    (popTwo State.reset).1.toInt = ((0 : Nat) : Int) := by decide
theorem witness_StoOutsideDataMemoryTraps :
    (popTwo (stacked [0xFFFFFFFF, 1])).1.toInt < 0 ∧ (Config.cap : Int) ≤ (popTwo (stacked [65536, 7])).1.toInt := by decide
theorem witness_CopyDuplicatesTheTop :
    DataWf (stacked [3] 65533) ∧
    ((stacked [3] 65533).sl.toNat + 2 < (pop (stacked [3] 65533)).2.sp.toNat ∧
      (pop (stacked [3] 65533)).2.sp.toNat ≤ Config.cap) ∧
    DataWf (stacked [3] 65534) ∧
    ((stacked [3] 65534).sl.toNat + 2 = (pop (stacked [3] 65534)).2.sp.toNat ∧
      (pop (stacked [3] 65534)).2.sp.toNat ≤ Config.cap) := by decide
theorem witness_AddSubMpyNegResults :
    DataWf (stacked [3, 4] 65534) ∧ CanPush (popTwo (stacked [3, 4] 65534)).2.2 ∧
    DataWf (stacked [5] 65534) ∧ CanPush (pop (stacked [5] 65534)).2 := by decide
theorem witness_DivModResults :
    DataWf (stacked [7, 2] 65534) ∧ CanPush (popTwo (stacked [7, 2] 65534)).2.2 ∧ (popTwo (stacked [7, 2] 65534)).2.1 ≠ 0 := by
  decide
theorem witness_DivisionByZeroTraps : (popTwo (stacked [7, 0])).2.1 = 0 ∧ (popTwo State.reset).2.1 = 0 := by decide
theorem witness_QuotientAndRemainderAgree :
    (0xFFFFFFFF : Word) ≠ 0 ∧ 0 ≤ (7 : Word).toInt ∧ (0x80000000 : Word).toInt ≤ 0 := by decide
theorem witness_NotOrAndResults :
    DataWf (stacked [2, 4]) ∧ CanPush (pop (stacked [2, 4])).2 ∧ CanPush (popTwo (stacked [2, 4])).2.2 := by decide
theorem witness_ComparisonResults : DataWf (stacked [3, 5]) ∧ CanPush (popTwo (stacked [3, 5])).2.2 := by decide
theorem witness_EmptyStackSuppliesZeros :
    DataWf (pointers 65536 65534) ∧ (pointers 65536 65534).sp.toNat = Config.cap ∧
    (pointers 65536 65534).sl.toNat + 1 < Config.cap := by decide
theorem witness_BitwiseResults : DataWf (stacked [2, 4]) ∧ CanPush (popTwo (stacked [2, 4])).2.2 := by decide
theorem witness_ShiftResults : DataWf (stacked [5]) ∧ CanPush (pop (stacked [5])).2 := by decide
theorem witness_GosubAndRetResults : (State.reset.setRs [2, 9]).rs = [2] ++ [9] ∧ (State.reset.setRs [65536]).rs = [] ++ [65536] := by
  decide
theorem witness_RetOnEmptyStackTraps : State.reset.rs = [] := by decide
theorem witness_ReturnStackEmptyIsRaisedByRetOnly :
    State.reset.rs = [] ∧ State.reset.cause ≠ .returnStackEmpty ∧
    ∃ t, exec .ret State.reset = .next t ∧ t.cause = .returnStackEmpty := ⟨rfl, by decide, _, rfl, rfl⟩
theorem witness_FiniteBuildsTrap :
    16 ≤ (16 : Operand).toNat ∧ 1 ≤ (State.reset.setRs [2]).rs.length ∧ State.reset.rs.length < 1 := by decide
theorem witness_HaltClearsRun : Runs .halt State.reset ∧ Runs .halt (State.reset.setPc 65535) := by decide
theorem witness_ReadConsumesOneWord :
    DataWf (deliver [17] (pointers 102 100)) ∧ (deliver [17] (pointers 102 100)).input[(deliver [17] (pointers 102 100)).inpos]? = some 17 ∧
    CanPush (deliver [17] (pointers 102 100)) ∧
    (deliver [17] (pointers 101 100)).sp.toNat ≤ (deliver [17] (pointers 101 100)).sl.toNat + 1 := by decide
theorem witness_ReadWaitsForInput :
    Waits (coded [0x001B0000]) ∧ (coded [0x001B0000]).inpos = (coded [0x001B0000]).input.length ∧
    DataWf (coded [0x001B0000]) ∧ CanPush (coded [0x001B0000]) := by decide
theorem witness_EveryPushCollides :
    stateAtPush (.push 1) (pointers 101 100) = some (pointers 101 100) ∧
    (pointers 101 100).sp.toNat ≤ (pointers 101 100).sl.toNat + 1 ∧
    stateAtPush .copy (stacked [3] 65535) = some (pop (stacked [3] 65535)).2 ∧
    (pop (stacked [3] 65535)).2.sp.toNat ≤ (pop (stacked [3] 65535)).2.sl.toNat + 1 := by decide
theorem witness_OnlyListedCausesAreRaised :
    (∃ t, exec .ret State.reset = .next t) ∧ ∃ t, exec .label State.reset = .next t := ⟨⟨_, rfl⟩, _, rfl⟩
theorem witness_StepRunsTheDecodedInstruction :
    (coded [0x0001002A]).run = true ∧ (coded [0x0001002A]).pc.toNat < Config.cap ∧
    decode (readCode (coded [0x0001002A]) (coded [0x0001002A]).pc.toNat) = .ok (.push 42) ∧ (Instr.push 42).wellFormed = true := by
  decide
theorem witness_PlacedWordIsRunNext :
    (State.reset.setPc 65535).run = true ∧ (State.reset.setPc 65535).pc.toNat < Config.cap ∧
    Memory.wf Config.codeFill (State.reset.setPc 65535).code = true ∧ decode 0x0016ABCD = .ok .label := by decide
theorem witness_FetchAndDispatchTraps :
    (State.reset.setPc 65536).run = true ∧ Config.cap ≤ (State.reset.setPc 65536).pc.toNat ∧
    (coded [0x00240007]).run = true ∧ (coded [0x00240007]).pc.toNat < Config.cap ∧
    36 ≤ (opcodeField (readCode (coded [0x00240007]) (coded [0x00240007]).pc.toNat)).toNat := by decide
theorem witness_StepExistsExactlyWhileRunning : State.reset.run = true ∧ State.reset.clearRun.run = false := by decide
theorem witness_OutcomesOfACycle_invariant : Inv (coded [0x001B0000]) :=
  inv_running (imageFrom 0 [0x001B0000]) [] 0 65536 0 (by decide) (by decide)
theorem witness_OutcomesOfACycle_clauses :
    cycleOutcome State.reset.clearRun = .terminal ∧ cycleOutcome (coded [0x001B0000]) = .blocked ∧
    cycleOutcome State.reset = .halted { State.reset with pc := 1, run := false } ∧
    cycleOutcome (coded [0x001D0000]) =
      .faulted .returnStackEmpty 1 { coded [0x001D0000] with pc := 1, run := false, cause := .returnStackEmpty, info := 1 } ∧
    cycleOutcome (coded [0x00160000]) = .next { coded [0x00160000] with pc := 1 } := by decide
theorem witness_InstructionsTouchOnlyTheirRegisters :
    (∃ t, exec .label State.reset = .next t) ∧ writesPc .read = false ∧
    (deliver [17] State.reset).inpos < (deliver [17] State.reset).input.length ∧
    (∃ t, exec .read (deliver [17] State.reset) = .next t) := ⟨⟨_, rfl⟩, by decide, by decide, _, rfl⟩
theorem witness_DataChangesOnlyWhereStored :
    (∃ t, exec .add (stacked [3, 4]) = .next t) ∧ storedAddresses .add (stacked [3, 4]) = [65535] ∧
    storedAddresses .copy (stacked [3]) = [65535, 65534] ∧ storedAddresses .sto (stacked [10, 7]) = [10] ∧
    storedAddresses .pop (stacked [3]) = [] := ⟨⟨_, rfl⟩, by decide, by decide, by decide, by decide⟩
theorem witness_EveryStepKeepsTheInvariant :
    Inv (coded [0x0001002A]) ∧ ∃ t, step (coded [0x0001002A]) = .next t :=
  ⟨inv_running (imageFrom 0 [0x0001002A]) [] 0 65536 0 (by decide) (by decide), _, rfl⟩
theorem witness_NoStepChangesCodeOrInput : ∃ t, step State.reset = .next t := ⟨_, rfl⟩
theorem witness_PushesNeverHitGeneralStorage :
    (∃ t, step ((coded [0x00010007]).setSl 65534) = .next t) ∧ ¬ Runs .sto ((coded [0x00010007]).setSl 65534) ∧
    65534 ≤ ((coded [0x00010007]).setSl 65534).sl.toNat := ⟨⟨_, rfl⟩, by decide, by decide⟩

/-- A machine before a STO with an empty stack: it stores 0 at address 0. -/
theorem witness_StackStaysAboveStorage :
    Inv (coded [0x00050000]) ∧ StackAboveStorage (coded [0x00050000]) ∧ Runs .sto (coded [0x00050000]) ∧
    storeAddress (popTwo (coded [0x00050000])).1 = some 0 ∧
    (after (step (coded [0x00050000]))).map (fun t => t.sp.toNat) = some 65536 :=
  ⟨inv_running (imageFrom 0 [0x00050000]) [] 0 65536 0 (by decide) (by decide), by decide, by decide, by decide, by decide⟩
theorem witness_HistoriesOnlyGrow :
    (∃ t, step (coded [0x001A0000]) = .next t) ∧ ∃ t, step (deliver [17] (coded [0x001B0000])) = .next t := ⟨⟨_, rfl⟩, _, rfl⟩
theorem witness_UnreachableCausesAreNotRaised :
    Inv (((coded [0x00010001]).setSp 1).setSl 0) ∧ ∃ t, step (((coded [0x00010001]).setSp 1).setSl 0) = .next t :=
  ⟨inv_running (imageFrom 0 [0x00010001]) [] 0 1 0 (by decide) (by decide), _, rfl⟩
theorem witness_UnreadInputHasNoInfluence : ¬ Waits State.reset ∧ ¬ Waits (deliver [17] (coded [0x001B0000])) := by decide
theorem witness_GosubThenRetReturns :
    Runs (.gosub 1) (coded [0x001C0001, 0x001D0000]) ∧
    decode (readCode (coded [0x001C0001, 0x001D0000]) (1 : Operand).toNat) = .ok .ret := by decide
theorem witness_PushPushSubSubtractsInSourceOrder :
    DataWf ((coded [0x0001000A, 0x00010003, 0x00080000]).setSp 3) ∧
    ((coded [0x0001000A, 0x00010003, 0x00080000]).setSp 3).sl.toNat + 2 < ((coded [0x0001000A, 0x00010003, 0x00080000]).setSp 3).sp.toNat ∧
    ((coded [0x0001000A, 0x00010003, 0x00080000]).setSp 3).sp.toNat ≤ Config.cap ∧
    Runs (.push 10) ((coded [0x0001000A, 0x00010003, 0x00080000]).setSp 3) ∧
    ((coded [0x0001000A, 0x00010003, 0x00080000]).setSp 3).pc.toNat + 2 < Config.cap ∧
    decode (readCode ((coded [0x0001000A, 0x00010003, 0x00080000]).setSp 3) 1) = .ok (.push 3) ∧
    decode (readCode ((coded [0x0001000A, 0x00010003, 0x00080000]).setSp 3) 2) = .ok .sub := by decide

end Sys2Proof.Tests
end

section
/-! SUPPORT. The stack pointer moved by a pop, and the high-water mark (spec/20_memory.md R48, R49). -/

namespace Sys2Proof.Machine

/-! ## Pop gives the top or 0 (R48) -/

/-- A pop neither reads `sl` nor writes it. -/
theorem pop_setSl (s : State) (v : BitVec 16) : pop (s.setSl v) = ((pop s).1, (pop s).2.setSl v) := by
  by_cases h : s.sp.toNat < Config.cap
  · rw [pop_of_lt h, pop_of_lt (s := s.setSl v) h]; rfl
  · rw [pop_of_not_lt h, pop_of_not_lt (s := s.setSl v) h]

/-- Settles O12, by the two branches of a pop, neither of which looks at `sl`. -/
theorem popTakesTheTopOrZero : Obligations.PopTakesTheTopOrZero := by
  refine ⟨fun s h => ⟨?value, ?pointer, pop_frame s⟩, fun s h => pop_of_not_lt (Nat.not_lt.2 h), pop_setSl⟩
  case value => rw [pop_of_lt h]
  case pointer => rw [pop_sp_toNat, if_pos h]

/-! ## The high-water mark (R49) -/

/-- A legal address fits the 16 bits of `sl`, so recording it takes the maximum exactly. -/
theorem recordStore_sl_toNat (s : State) {a : Nat} (ha : a < Config.cap) :
    (recordStore a s).sl.toNat = max s.sl.toNat a := by
  have hmax : max s.sl.toNat a < 2 ^ 16 := Nat.max_lt.2 ⟨s.sl.isLt, ha⟩
  rw [recordStore_sl, BitVec.toNat_ofNat, Nat.mod_eq_of_lt hmax]

theorem storeAddress_of_toInt {w : Word} {a : Nat} (hw : w.toInt = (a : Int)) (ha : a < Config.cap) :
    storeAddress w = some a := by
  rw [storeAddress, hw, if_pos ⟨Int.natCast_nonneg a, Int.ofNat_lt.2 ha⟩, Int.toNat_natCast]

theorem exec_sto_of_storeAddress {s : State} {a : Nat} (h : storeAddress (popTwo s).1 = some a) :
    exec .sto s = .next (recordStore a (writeData (popTwo s).2.2 a (popTwo s).2.1)) := by
  change execSto s = _
  rw [execSto, h]

/-- A push leaves `sl` alone, whether it is carried out or raises. -/
theorem finish_push_sl {v : Word} {s t : State} (h : finish (push v s) = .next t) : t.sl = s.sl := by
  obtain ⟨-, rfl⟩ | ⟨-, -, rfl⟩ | ⟨-, rfl⟩ := finish_push_cases h
  · rfl
  · rfl
  · rfl

/-- Every effect but that of STO leaves `sl` alone: it ends in a push, or in an update of another register. -/
theorem Effect.sl_eq {i : Instr} {s t : State} (e : Effect s i t) (hi : i ≠ .sto) : t.sl = s.sl := by
  cases e with
  | stores | storeTrap => exact absurd rfl hi
  | pushes _ _ h => exact finish_push_sl h
  | reads _ _ h => exact (finish_push_sl h).trans rfl
  | copyFirst _ h | copySecond _ h | unary _ _ h => exact (finish_push_sl h).trans (pop_sl s)
  | binary _ _ _ h => exact (finish_push_sl h).trans (popTwo_sl s)
  | pops | branches | fallsThrough | prints => exact pop_sl s
  | divideTrap => exact popTwo_sl s
  | halt | label | goto | readWaits | gosub | ret | retTrap => rfl

/-- Settles O14: a STO ends in `recordStore`, and no other effect of an instruction moves `sl`. -/
theorem onlyStoresRaiseTheHighWaterMark : Obligations.OnlyStoresRaiseTheHighWaterMark := by
  refine ⟨fun s a ha => ⟨recordStore_sl_toNat s ha, rfl⟩, fun s a hw ha => ?store,
    fun i s t hi h => (exec_effect h).sl_eq hi⟩
  case store =>
    refine ⟨_, exec_sto_of_storeAddress (storeAddress_of_toInt hw ha), ?_⟩
    rw [recordStore_sl, recordStore_sl, writeData_sl, popTwo_sl]

end Sys2Proof.Machine
end

section
/-! SUPPORT. The two fields of an instruction word as numbers (spec/30_encoding.md R61). -/

namespace Sys2Proof

/-- What is left of a 32-bit word after shifting 16 bits out fits the opcode field, so no bit is lost. -/
theorem opcodeField_toNat (w : Word) : (opcodeField w).toNat = (w >>> 16).toNat := by
  have hfits : w.toNat >>> 16 < 2 ^ 16 := by
    rw [Nat.shiftRight_eq_div_pow]
    exact Nat.div_lt_of_lt_mul w.isLt
  rw [opcodeField, BitVec.extractLsb'_toNat, BitVec.toNat_ushiftRight, Nat.mod_eq_of_lt hfits]

/-- The mask `0xFFFF` keeps the remainder modulo `2 ^ 16`, which is the operand field. -/
theorem operandField_toNat (w : Word) : (operandField w).toNat = (w &&& 0xFFFF#32).toNat := by
  have hmask : w.toNat &&& (0xFFFF#32).toNat = w.toNat % 2 ^ 16 := Nat.and_two_pow_sub_one_eq_mod _ 16
  rw [operandField, BitVec.extractLsb'_toNat, BitVec.toNat_and, hmask, Nat.shiftRight_zero]

/-- Settles O1, by the number each field holds; R61's two examples are evaluated. -/
theorem fieldsAreTheTwoHalvesOfTheWord : Obligations.FieldsAreTheTwoHalvesOfTheWord :=
  ⟨fun w => ⟨opcodeField_toNat w, operandField_toNat w⟩, by decide⟩

end Sys2Proof
end

section
/-! SUPPORT. The decoder and the encoder against the opcode map, row by row (spec/30_encoding.md R60 to R66), and the
bytes of a word (spec/20_memory.md R40). -/

namespace Sys2Proof

/-! ## Rows of the opcode map -/

/-- The row of the map an instruction stands in is found under its number and builds it back from its operand. -/
theorem opMap_find_opcodeNumber (i : Instr) :
    ∃ r, opMap.find? (fun r => r.opcode == opcodeNumber i) = some r ∧ r.build (operandOf i) = i := by
  cases i <;> exact ⟨_, rfl, rfl⟩

/-- What every row builds has the row's number, and has the given operand unless it ignores it. -/
theorem opMap_build {r : OpRow} (hr : r ∈ opMap) (n : Operand) :
    opcodeNumber (r.build n) = r.opcode ∧
      (usesOperand (r.build n) = true → operandOf (r.build n) = n) ∧
      (usesOperand (r.build n) = false → ∀ m, r.build m = r.build n) := by
  revert r
  simp [opMap, opMapStack, opMapArith, opMapLogic, opMapControl, opMapBits, opcodeNumber, usesOperand, operandOf]

theorem opMap_opcode_lt {r : OpRow} (hr : r ∈ opMap) : r.opcode.toNat < 36 := by
  revert r; decide

/-- Every number below 36 has a row. -/
theorem opMap_find_isSome_of_lt {c : Opcode} (h : c.toNat < 36) :
    (opMap.find? (fun r => r.opcode == c)).isSome = true := by
  have rows : ∀ k < 36, (opMap.find? (fun r => r.opcode == BitVec.ofNat 16 k)).isSome = true := by decide
  simpa using rows c.toNat h

/-! ## The decoder -/

theorem decode_of_find {w : Word} {r : OpRow} (h : opMap.find? (fun r => r.opcode == opcodeField w) = some r) :
    decode w = .ok (r.build (operandField w)) := by
  rw [decode, decodeWith, h]

theorem decode_of_find_none {w : Word} (h : opMap.find? (fun r => r.opcode == opcodeField w) = none) :
    decode w = .error (.unrecognizedOpcode (opcodeField w)) := by
  rw [decode, decodeWith, h]

/-- A word that decodes was decoded by the row of its opcode field. -/
theorem row_of_decode {w : Word} {i : Instr} (h : decode w = .ok i) :
    ∃ r, opMap.find? (fun r => r.opcode == opcodeField w) = some r ∧ r ∈ opMap ∧ r.opcode = opcodeField w ∧
      r.build (operandField w) = i := by
  cases hf : opMap.find? (fun r => r.opcode == opcodeField w) with
  | none => rw [decode_of_find_none hf] at h; cases h
  | some r =>
    rw [decode_of_find hf] at h
    have hop : (r.opcode == opcodeField w) = true :=
      List.find?_some (p := fun r : OpRow => r.opcode == opcodeField w) hf
    exact ⟨r, rfl, List.mem_of_find?_eq_some hf, eq_of_beq hop, Except.ok.inj h⟩

@[simp] theorem decode_encode (i : Instr) : decode (encode i) = .ok i := by
  obtain ⟨r, hf, hb⟩ := opMap_find_opcodeNumber i
  rw [decode_of_find (r := r) (by rwa [encode, opcodeField_append]), encode, operandField_append, hb]

/-- A word whose opcode is 36 or more is rejected with its opcode: no row has such a number. -/
theorem decode_of_opcode_ge {w : Word} (h : 36 ≤ (opcodeField w).toNat) :
    decode w = .error (.unrecognizedOpcode (opcodeField w)) := by
  refine decode_of_find_none (List.find?_eq_none.2 fun r hr heq => ?_)
  have hlt := opMap_opcode_lt hr
  rw [eq_of_beq heq] at hlt
  omega

/-! ## Bytes (R40) -/

theorem wordOfBytes_bytesOfWord (w : Word) :
    wordOfBytes (w.extractLsb' 24 8) (w.extractLsb' 16 8) (w.extractLsb' 8 8) (w.extractLsb' 0 8) = w := by
  unfold wordOfBytes
  rw [BitVec.extractLsb'_append_extractLsb'_eq_extractLsb' (by rfl),
    BitVec.extractLsb'_append_extractLsb'_eq_extractLsb' (by rfl),
    BitVec.extractLsb'_append_extractLsb'_eq_extractLsb' (by rfl), BitVec.extractLsb'_eq_self]

/-- The four bytes of a word are the two bytes of its opcode, then the two of its operand. -/
theorem bytesOfWord_append_toNat (c : Opcode) (n : Operand) :
    (bytesOfWord (c ++ n)).map (fun b => b.toNat) = [c.toNat / 256, c.toNat % 256, n.toNat / 256, n.toNat % 256] := by
  have hc := c.isLt
  have hn := n.isLt
  simp only [bytesOfWord, List.map_cons, List.map_nil, BitVec.extractLsb'_toNat, BitVec.toNat_append,
    Nat.shiftRight_eq_div_pow, List.cons.injEq, and_true]
  rw [← Nat.shiftLeft_add_eq_or_of_lt hn, Nat.shiftLeft_eq]
  omega

/-- The decoder of a program file reads one word and leaves the bytes after it. -/
theorem decodeBytes_bytesOfWord_append {w : Word} {i : Instr} (h : decode w = .ok i) (rest : List Byte) :
    decodeBytes (bytesOfWord w ++ rest) = .ok (i, rest) := by
  simp only [bytesOfWord, List.cons_append, List.nil_append, decodeBytes, wordOfBytes_bytesOfWord, h]

/-! ## The statements -/

/-- Settles O3: the encoder's word is found again in the opcode map, and its bytes are those of its two fields. -/
theorem decodeInvertsEncode : Obligations.DecodeInvertsEncode := fun i _ =>
  ⟨decode_encode i, bytesOfWord_append_toNat _ _, decodeBytes_bytesOfWord_append (decode_encode i)⟩

/-- Settles O4, by the row that decoded the word. -/
theorem decodedWordIsAnEncoding : Obligations.DecodedWordIsAnEncoding := by
  intro w i h
  obtain ⟨r, -, hr, hop, rfl⟩ := row_of_decode h
  obtain ⟨hnum, hoperand, -⟩ := opMap_build hr (operandField w)
  refine ⟨by rw [hnum, hop], fun hu => ?_⟩
  rw [encode, hnum, hop, hoperand hu, append_fields]

/-- Settles O5: the map has a row for exactly the numbers below 36. -/
theorem recognizedOpcodesAreBelow36 : Obligations.RecognizedOpcodesAreBelow36 := by
  refine fun w => ⟨fun h => ?_, decode_of_opcode_ge⟩
  obtain ⟨r, hf⟩ := Option.isSome_iff_exists.1 (opMap_find_isSome_of_lt h)
  exact ⟨_, decode_of_find hf⟩

/-- Settles O6: the new word selects the same row, and that row ignores the operand. -/
theorem ignoredOperandDoesNotMatter : Obligations.IgnoredOperandDoesNotMatter := by
  intro w i n h hu
  obtain ⟨r, hf, hr, -, rfl⟩ := row_of_decode h
  obtain ⟨-, -, hignores⟩ := opMap_build hr (operandField w)
  rw [decode_of_find (r := r) (by rwa [opcodeField_append]), operandField_append, hignores hu]

/-- Settles O2: the eleven words are evaluated under the opcode map. -/
theorem wordsOfTheSpecDecode : Obligations.WordsOfTheSpecDecode := by
  unfold Obligations.WordsOfTheSpecDecode
  decide

end Sys2Proof
end

section
/-! SUPPORT. The loader (spec/70_reset_and_hazards.md R195), the state it leaves, and the canonical form of a memory. -/

namespace Sys2Proof.Machine

/-! ## The canonical form is one form -/

/-- The two heads of canonical memories that read the same are the same entry, or one of the two would read the fill
word where the other does not. -/
theorem Memory.eq_of_read_eq {fill : Word} {lo lo' : Nat} {m m' : Memory} (hm : wfFrom fill lo m = true)
    (hm' : wfFrom fill lo' m' = true) (h : ∀ a, read fill m a = read fill m' a) : m = m' := by
  induction m generalizing lo lo' m' with
  | nil =>
    cases m' with
    | nil => rfl
    | cons c m' =>
      obtain ⟨b, w⟩ := c
      obtain ⟨-, -, hw, -⟩ := wfFrom_cons.1 hm'
      exact absurd (by simpa [read_cons] using (h b).symm) hw
  | cons c m ih =>
    obtain ⟨b, w⟩ := c
    obtain ⟨-, -, hw, ht⟩ := wfFrom_cons.1 hm
    cases m' with
    | nil => exact absurd (by simpa [read_cons] using h b) hw
    | cons c' m' =>
      obtain ⟨b', w'⟩ := c'
      obtain ⟨-, -, hw', ht'⟩ := wfFrom_cons.1 hm'
      obtain hlt | rfl | hgt := lt_trichotomy b b'
      · have hb := h b
        rw [read_cons, if_pos rfl, read_cons, if_neg hlt.ne, read_below ht' (by omega)] at hb
        exact absurd hb hw
      · have hb := h b
        rw [read_cons, if_pos rfl, read_cons, if_pos rfl] at hb
        subst hb
        refine congrArg _ (ih ht ht' fun a => ?_)
        by_cases hab : a = b
        · rw [hab, read_below ht (by omega), read_below ht' (by omega)]
        · simpa [read_cons, hab] using h a
      · have hb := h b'
        rw [read_cons, if_neg hgt.ne, read_below ht (by omega), read_cons, if_pos rfl] at hb
        exact absurd hb.symm hw'

/-- Settles O11, by induction on both memories. -/
theorem canonicalMemoriesWithEqualReadsAreEqual : Obligations.CanonicalMemoriesWithEqualReadsAreEqual :=
  fun _ _ _ hm hm' h => Memory.eq_of_read_eq hm hm' h

/-! ## The words of a file -/

theorem fileWords_bytesOfWord_append {file : List Byte} {ws : List Word} (h : fileWords file = .ok ws) (w : Word) :
    fileWords (bytesOfWord w ++ file) = .ok (w :: ws) := by
  simp only [bytesOfWord, List.cons_append, List.nil_append, fileWords, h, wordOfBytes_bytesOfWord]

theorem fileWords_flatMap_bytesOfWord (ws : List Word) : fileWords (ws.flatMap bytesOfWord) = .ok ws := by
  induction ws with
  | nil => rfl
  | cons w ws ih => exact fileWords_bytesOfWord_append ih w

theorem fileWords_of_length_mod_ne :
    ∀ file : List Byte, file.length % 4 ≠ 0 → fileWords file = .error .truncatedWord
  | [], h => absurd rfl h
  | [_], _ | [_, _], _ | [_, _, _], _ => rfl
  | b3 :: b2 :: b1 :: b0 :: rest, h => by
    have hrest : rest.length % 4 ≠ 0 := by simp only [List.length_cons] at h; omega
    simp only [fileWords, fileWords_of_length_mod_ne rest hrest]

theorem fileWords_of_length_mod_eq :
    ∀ file : List Byte, file.length % 4 = 0 → ∃ ws, fileWords file = .ok ws ∧ 4 * ws.length = file.length
  | [], _ => ⟨[], rfl, rfl⟩
  | [_], h | [_, _], h | [_, _, _], h => by cases h
  | b3 :: b2 :: b1 :: b0 :: rest, h => by
    have hrest : rest.length % 4 = 0 := by simp only [List.length_cons] at h; omega
    obtain ⟨ws, hws, hl⟩ := fileWords_of_length_mod_eq rest hrest
    exact ⟨_, by simp only [fileWords, hws]; rfl, by simp only [List.length_cons]; omega⟩

/-! ## The image -/

/-- Words placed from `a` on within code memory are a canonical memory from `a` on. -/
theorem wfFrom_imageFrom {a : Nat} {ws : List Word} (h : a + ws.length ≤ Config.cap) :
    Memory.wfFrom Config.codeFill a (imageFrom a ws) = true := by
  induction ws generalizing a with
  | nil => rfl
  | cons w ws ih =>
    rw [List.length_cons] at h
    have htail := ih (a := a + 1) (by omega)
    unfold imageFrom
    split
    · exact Memory.wfFrom_mono (by omega) htail
    · exact Memory.wfFrom_cons.2 ⟨le_rfl, by omega, by assumption, htail⟩

/-- Word `k` of the list is read at address `a + k`, and past the list the fill word. -/
theorem read_imageFrom {a : Nat} {ws : List Word} (h : a + ws.length ≤ Config.cap) (k : Nat) :
    Memory.read Config.codeFill (imageFrom a ws) (a + k) = ws.getD k Config.codeFill := by
  induction ws generalizing a k with
  | nil => rfl
  | cons w ws ih =>
    rw [List.length_cons] at h
    have htail : a + 1 + ws.length ≤ Config.cap := by omega
    have hbelow : Memory.read Config.codeFill (imageFrom (a + 1) ws) a = Config.codeFill :=
      Memory.read_below (wfFrom_imageFrom htail) (by omega)
    unfold imageFrom
    cases k with
    | zero =>
      rw [List.getD_cons_zero]
      split
      · rename_i hw; exact hbelow.trans hw.symm
      · exact if_pos rfl
    | succ k =>
      have hk : a + (k + 1) = a + 1 + k := by omega
      rw [hk, List.getD_cons_succ, ← ih htail k]
      split
      · rfl
      · rw [Memory.read_cons, if_neg (by omega)]

theorem loadFile_of_words {file : List Byte} {ws : List Word} (h : fileWords file = .ok ws)
    (hl : ws.length ≤ Config.cap) : loadFile file = .ok (imageFrom 0 ws) := by
  rw [loadFile, h]; exact if_neg (Nat.not_lt.2 hl)

/-! ## Bytes and their word -/

theorem wordOfBytes_toNat (b3 b2 b1 b0 : Byte) :
    (wordOfBytes b3 b2 b1 b0).toNat = b3.toNat * 2 ^ 24 + b2.toNat * 2 ^ 16 + b1.toNat * 2 ^ 8 + b0.toNat := by
  have h2 := b2.isLt
  have h1 := b1.isLt
  have h0 := b0.isLt
  simp only [wordOfBytes, BitVec.toNat_append]
  rw [← Nat.shiftLeft_add_eq_or_of_lt h0, ← Nat.shiftLeft_add_eq_or_of_lt h1, ← Nat.shiftLeft_add_eq_or_of_lt h2]
  simp only [Nat.shiftLeft_eq]
  omega

theorem bytesOfWord_wordOfBytes (b3 b2 b1 b0 : Byte) : bytesOfWord (wordOfBytes b3 b2 b1 b0) = [b3, b2, b1, b0] := by
  have h2 := b2.isLt
  have h1 := b1.isLt
  have h0 := b0.isLt
  have h3 := b3.isLt
  simp only [bytesOfWord, List.cons.injEq, and_true]
  refine ⟨?_, ?_, ?_, ?_⟩ <;> apply BitVec.eq_of_toNat_eq <;>
    rw [BitVec.extractLsb'_toNat, wordOfBytes_toNat, Nat.shiftRight_eq_div_pow] <;> omega

/-! ## The statements -/

/-- Settles O7: the file's words are the list, and its image reads them in order. -/
theorem loaderPlacesWordsFromAddressZero : Obligations.LoaderPlacesWordsFromAddressZero := by
  refine ⟨fun ws hl => ⟨imageFrom 0 ws, ?_, ?_, fun a => ?_⟩,
    fun b3 b2 b1 b0 => ⟨bytesOfWord_wordOfBytes b3 b2 b1 b0, wordOfBytes_toNat b3 b2 b1 b0⟩⟩
  · exact loadFile_of_words (fileWords_flatMap_bytesOfWord ws) hl
  · exact wfFrom_imageFrom (by omega)
  · simpa [Config.codeFill] using read_imageFrom (a := 0) (ws := ws) (by omega) a

/-- Settles O8, by the length of the file modulo 4. -/
theorem loaderRejectsBadFiles : Obligations.LoaderRejectsBadFiles := by
  refine fun file => ⟨fun h => ?_, fun h hlong => ?_⟩
  · rw [loadFile, fileWords_of_length_mod_ne file h]
  · obtain ⟨ws, hws, hl⟩ := fileWords_of_length_mod_eq file h
    rw [loadFile, hws]
    exact if_pos (by omega)

/-! ## Reset -/

/-- Settles O9: the fields of the reset state are written in its definition. -/
theorem resetValues : Obligations.ResetValues :=
  ⟨rfl, rfl, rfl, rfl, rfl, rfl, rfl, rfl, rfl, fun _ => rfl, fun _ => rfl⟩

theorem inv_start {code : Memory} (input : List Word) (h : Memory.wf Config.codeFill code = true) :
    Inv (State.start code input) where
  sp_pos := Nat.le_add_left 1 65535
  sp_le := le_rfl
  pc_le := Nat.zero_le _
  rs_range := fun _ hp => by cases hp
  stopped_of_cause := fun hn => absurd rfl hn
  info_zero := fun _ => rfl
  inpos_le := Nat.zero_le _
  data_wf := rfl
  code_wf := h

/-- Settles O10: the reset state is the start with no program and no input. -/
theorem resetSatisfiesTheInvariant : Obligations.ResetSatisfiesTheInvariant :=
  ⟨inv_start [] rfl, .inl rfl, fun _ input h => ⟨inv_start input h, .inl rfl⟩⟩

end Sys2Proof.Machine
end

section
/-! SUPPORT. What the instructions that complete leave: the pushed word, the pops before it, and the frame (spec/41 to
spec/47). Every instruction that pushes runs through `exists_pushed`, so a proof only says which word is pushed. -/

namespace Sys2Proof.Machine

variable {s : State} {v : Word}

/-! ## A push that fits -/

/-- The state a push that fits leaves (`push_of_canPush`). -/
abbrev afterPush (v : Word) (s : State) : State := (writeData s (s.sp.toNat - 1) v).setSp (s.sp - 1)

theorem afterPush_sp_toNat (h : CanPush s) (v : Word) : (afterPush v s).sp.toNat = s.sp.toNat - 1 :=
  sp_sub_one_toNat h

theorem readData_afterPush_same (hd : DataWf s) (v : Word) : readData (afterPush v s) (s.sp.toNat - 1) = v :=
  readData_writeData_same hd _ v

theorem readData_afterPush_other {a : Nat} (h : a ≠ s.sp.toNat - 1) (v : Word) :
    readData (afterPush v s) a = readData s a :=
  readData_writeData_other s v h

/-- What a push leaves can be pushed on: its data memory is canonical. -/
theorem dataWf_afterPush (hd : DataWf s) (h : CanPush s) (v : Word) : DataWf (afterPush v s) := by
  obtain ⟨hlt, hle⟩ := h
  exact dataWf_writeData hd v (by omega)

theorem pushed_of_canPush (hd : DataWf s) (h : CanPush s) (v : Word) : Pushed v s (afterPush v s) where
  sp_eq := by
    have hlt := h.1
    rw [afterPush_sp_toNat h]; omega
  top_eq := by rw [afterPush_sp_toNat h, readData_afterPush_same hd]
  other_eq a ha := readData_afterPush_other (by rwa [afterPush_sp_toNat h] at ha) v
  frame := rfl

/-- A push that fits completes with its word pushed; the word may be given in another form. -/
theorem exists_pushed {w : Word} (hd : DataWf s) (h : CanPush s) (hw : w = v) :
    ∃ t, finish (push w s) = .next t ∧ Pushed v s t := by
  subst hw
  exact ⟨_, by rw [push_of_canPush w h, finish_ok], pushed_of_canPush hd h w⟩

/-- Pops leave data memory alone. -/
theorem dataWf_pop (hd : DataWf s) : DataWf (pop s).2 := by rwa [DataWf, pop_data]

theorem dataWf_popTwo (hd : DataWf s) : DataWf (popTwo s).2.2 := by rwa [DataWf, popTwo_data]

/-- A one-operand instruction whose push fits. -/
theorem exists_pushed_unaryOp {f : Word → Word} (hd : DataWf s) (h : CanPush (pop s).2) (hf : f (pop s).1 = v) :
    ∃ t, unaryOp f s = .next t ∧ Pushed v (pop s).2 t :=
  exists_pushed (dataWf_pop hd) h hf

/-- A two-operand instruction whose push fits. -/
theorem exists_pushed_binaryOp {f : Word → Word → Word} (hd : DataWf s) (h : CanPush (popTwo s).2.2)
    (hf : f (popTwo s).1 (popTwo s).2.1 = v) : ∃ t, binaryOp f s = .next t ∧ Pushed v (popTwo s).2.2 t :=
  exists_pushed (dataWf_popTwo hd) h hf

theorem divideOp_of_ne_zero {f : Word → Word → Word} (h0 : (popTwo s).2.1 ≠ 0) : divideOp f s = binaryOp f s :=
  if_neg h0

theorem divideOp_of_eq_zero {f : Word → Word → Word} (h0 : (popTwo s).2.1 = 0) :
    divideOp f s = .next ((popTwo s).2.2.raise .divideByZero (popTwo s).1) :=
  if_pos h0

/-! ## Push and pops -/

/-- Settles O13, one clause per branch of `push`. -/
theorem pushChecksThenWrites : Obligations.PushChecksThenWrites := fun _ v hd =>
  ⟨push_of_collision v, push_of_exhausted v, fun h => ⟨_, push_of_canPush v h, pushed_of_canPush hd h v⟩⟩

/-- The two pops of a two-operand instruction, the first on a stack that is not empty. -/
theorem popTwo_of_lt (h : s.sp.toNat < Config.cap) :
    (popTwo s).2.1 = readData s s.sp.toNat ∧ (popTwo s).1 = (pop (s.setSp (s.sp + 1))).1 ∧
      (popTwo s).2.2 = (pop (s.setSp (s.sp + 1))).2 := by
  rw [popTwo, pop_of_lt h]; exact ⟨rfl, rfl, rfl⟩

theorem popTwo_of_not_lt (h : ¬ s.sp.toNat < Config.cap) : popTwo s = (0, 0, s) := by
  simp only [popTwo, pop_of_not_lt h]

theorem setSp_succ_sp_toNat (h : s.sp.toNat < Config.cap) : (s.setSp (s.sp + 1)).sp.toNat = s.sp.toNat + 1 := by
  rw [cap_eq] at h
  rw [State.setSp_sp, BitVec.toNat_add_of_lt (by simp; omega)]
  rfl

/-- Settles O15, by the number of entries on the stack. -/
theorem rightOperandIsPoppedFirst : Obligations.RightOperandIsPoppedFirst := by
  refine fun s => ⟨fun h => ?two, fun h => ?one, fun h => popTwo_of_not_lt (Nat.not_lt.2 h)⟩
  case two =>
    have hlt : s.sp.toNat < Config.cap := by omega
    have hsp := setSp_succ_sp_toNat hlt
    obtain ⟨hright, hleft, hstate⟩ := popTwo_of_lt hlt
    refine ⟨hright, ?_, ?_, popTwo_frame s⟩
    · rw [hleft, pop_of_lt (by omega), hsp, readData_setSp]
    · rw [hstate, pop_sp_toNat, if_pos (by omega), hsp]
  case one =>
    have hlt : s.sp.toNat < Config.cap := by omega
    have hsp := setSp_succ_sp_toNat hlt
    obtain ⟨hright, hleft, hstate⟩ := popTwo_of_lt hlt
    refine ⟨hright, ?_, ?_, popTwo_frame s⟩
    · rw [hleft, pop_of_not_lt (by omega)]
    · rw [hstate, pop_of_not_lt (by omega), hsp, h]

/-! ## Stack and storage -/

/-- Settles O16: both push the literal of their operand. -/
theorem pushAndLvaluePushTheOperand : Obligations.PushAndLvaluePushTheOperand := fun _ _ hd h =>
  ⟨exists_pushed hd h rfl, exists_pushed hd h rfl⟩

/-- Settles O17: every operand is a legal data address here. -/
theorem rvaluePushesTheCell : Obligations.RvaluePushesTheCell := fun s n hd h => by
  rw [exec_rvalue]; exact exists_pushed hd h rfl

/-- Settles O18, by the two branches of a pop. -/
theorem popMovesOnlyTheStackPointer : Obligations.PopMovesOnlyTheStackPointer := by
  refine ⟨fun s h => ?_, fun s h => ?_⟩
  · change Host.Outcome.next (pop s).2 = _
    rw [pop_of_lt h]; rfl
  · change Host.Outcome.next (pop s).2 = _
    rw [pop_of_not_lt (Nat.not_lt.2 h)]

/-- Settles O19: the popped address is legal, so STO writes there and records the store. -/
theorem stoStoresAndRaisesTheHighWaterMark : Obligations.StoStoresAndRaisesTheHighWaterMark := by
  intro s a hd hw ha
  refine ⟨_, exec_sto_of_storeAddress (storeAddress_of_toInt hw ha), ?stored, fun b hb => ?others, ?mark, ?frame⟩
  case stored => rw [readData_recordStore, readData_writeData_same (dataWf_popTwo hd)]
  case others => rw [readData_recordStore, readData_writeData_other _ _ hb, readData_popTwo]
  case mark => rw [recordStore_sl_toNat _ ha, writeData_sl, popTwo_sl]
  case frame => rw [popTwo_frame s]; rfl

theorem storeAddress_eq_none {w : Word} (h : w.toInt < 0 ∨ (Config.cap : Int) ≤ w.toInt) : storeAddress w = none :=
  if_neg (by omega)

/-- Settles O20: no legal address, so STO traps after its pops. -/
theorem stoOutsideDataMemoryTraps : Obligations.StoOutsideDataMemoryTraps := fun s h => by
  change execSto s = _
  rw [execSto, storeAddress_eq_none h]

/-! ### COPY -/

/-- COPY's second push, after a first one that fits. -/
theorem exec_copy_of_canPush (h : CanPush (pop s).2) :
    exec .copy s = finish (push (pop s).1 (afterPush (pop s).1 (pop s).2)) := by
  change execCopy s = _
  rw [execCopy, push_of_canPush _ h]; rfl

theorem wrap_toNat_eq_setWidth (m : BitVec 16) : wrap (m.toNat : Int) = m.setWidth 32 := by
  apply BitVec.eq_of_toInt_eq
  rw [wrap, BitVec.toInt_ofInt, BitVec.toInt_setWidth]

/-- Settles O21: the first push fits in both clauses, the second in the first clause only. -/
theorem copyDuplicatesTheTop : Obligations.CopyDuplicatesTheTop := by
  refine fun s hd => ⟨fun h hle => ?both, fun h hle => ?second⟩
  case both =>
    have hc : CanPush (pop s).2 := ⟨by rw [pop_sl]; omega, hle⟩
    have hc' : CanPush (afterPush (pop s).1 (pop s).2) := by
      rw [CanPush, afterPush_sp_toNat hc, State.setSp_sl, writeData_sl, pop_sl]
      omega
    obtain ⟨u, hu, hp⟩ := exists_pushed (dataWf_afterPush (dataWf_pop hd) hc (pop s).1) hc' rfl
    exact ⟨_, u, (exec_copy_of_canPush hc).trans hu, pushed_of_canPush (dataWf_pop hd) hc _, hp⟩
  case second =>
    have hc : CanPush (pop s).2 := ⟨by rw [pop_sl]; omega, hle⟩
    have hsp := afterPush_sp_toNat hc (pop s).1
    have hcollides : (afterPush (pop s).1 (pop s).2).sp.toNat ≤ (afterPush (pop s).1 (pop s).2).sl.toNat + 1 := by
      rw [hsp, State.setSp_sl, writeData_sl, pop_sl]; omega
    have htarget : ((afterPush (pop s).1 (pop s).2).sp.toNat : Int) - 1 = s.sl.toNat := by omega
    refine ⟨_, pushed_of_canPush (dataWf_pop hd) hc _, (exec_copy_of_canPush hc).trans ?_⟩
    rw [push_of_collision _ hcollides, finish_error, htarget, wrap_toNat_eq_setWidth]

/-! ## Arithmetic -/

/-- Settles O22: the execution unit computes these words by definition. -/
theorem addSubMpyNegResults : Obligations.AddSubMpyNegResults := fun _ hd =>
  ⟨fun h => ⟨exists_pushed_binaryOp hd h rfl, exists_pushed_binaryOp hd h rfl, exists_pushed_binaryOp hd h rfl⟩,
    fun h => exists_pushed_unaryOp hd h rfl⟩

theorem wrap_toInt (v : Word) : wrap v.toInt = v := BitVec.ofInt_toInt

theorem toInt_ne_zero {v : Word} (h : v ≠ 0) : v.toInt ≠ 0 := fun h' =>
  h (BitVec.eq_of_toInt_eq (by simpa using h'))

/-- The remainder of R105 is the one that goes with the truncated quotient. -/
theorem aluMod_eq_wrap_tmod (left right : Word) : aluMod left right = wrap (left.toInt.tmod right.toInt) := by
  rw [aluMod, quotient, Int.tmod_def, Int.mul_comm]

/-- Settles O23: with a divisor that is not 0 both are plain two-operand instructions. -/
theorem divModResults : Obligations.DivModResults := by
  refine fun s hd h h0 => ⟨?div, ?mod⟩
  case div =>
    change ∃ t, divideOp aluDiv s = .next t ∧ _
    rw [divideOp_of_ne_zero h0]
    exact exists_pushed_binaryOp hd h rfl
  case mod =>
    change ∃ t, divideOp aluMod s = .next t ∧ _
    rw [divideOp_of_ne_zero h0]
    exact exists_pushed_binaryOp hd h (aluMod_eq_wrap_tmod _ _)

/-- Settles O24: both check the divisor before their push. -/
theorem divisionByZeroTraps : Obligations.DivisionByZeroTraps := fun _ h0 =>
  ⟨divideOp_of_eq_zero h0, divideOp_of_eq_zero h0⟩

/-- The remainder fits a word: in magnitude it is below the divisor. -/
theorem aluMod_toInt {left right : Word} (h : right ≠ 0) :
    (aluMod left right).toInt = left.toInt.tmod right.toInt := by
  have h0 := toInt_ne_zero h
  have hlt := Int.natAbs_tmod left.toInt right.toInt
  have hmod : (left.toInt.tmod right.toInt).natAbs < right.toInt.natAbs := by
    rw [hlt]; exact Nat.mod_lt _ (Int.natAbs_pos.2 h0)
  have hle := BitVec.toInt_lt (x := right)
  have hge := BitVec.le_toInt (x := right)
  rw [aluMod_eq_wrap_tmod, wrap, BitVec.toInt_ofInt_eq_self (by decide) (by omega) (by omega)]

/-- Settles O25, by the laws of the truncated quotient and remainder of integers. -/
theorem quotientAndRemainderAgree : Obligations.QuotientAndRemainderAgree := by
  intro left right h
  have h0 := toInt_ne_zero h
  rw [aluMod_toInt h]
  refine ⟨?dividend, ?smaller, fun hl => Int.tmod_nonneg _ hl, fun hl => ?negative⟩
  case dividend =>
    calc aluDiv left right * right + aluMod left right
        = wrap (left.toInt.tdiv right.toInt) * wrap right.toInt + wrap (left.toInt.tmod right.toInt) := by
          rw [aluMod_eq_wrap_tmod, wrap_toInt]; rfl
      _ = wrap (left.toInt.tdiv right.toInt * right.toInt + left.toInt.tmod right.toInt) := by
          rw [wrap, wrap, wrap, wrap, BitVec.ofInt_add, BitVec.ofInt_mul]
      _ = left := by rw [Int.tdiv_mul_add_tmod, wrap_toInt]
  case smaller => rw [Int.natAbs_tmod]; exact Nat.mod_lt _ (Int.natAbs_pos.2 h0)
  case negative =>
    have hneg : 0 ≤ (-left.toInt).tmod right.toInt := Int.tmod_nonneg _ (by omega)
    rw [Int.neg_tmod] at hneg
    omega

/-! ## Logic and comparison -/

theorem truthWord_decide (p : Prop) [Decidable p] : truthWord (decide p) = if p then 1 else 0 := by
  unfold truthWord; split <;> simp_all

theorem aluNot_eq (v : Word) : aluNot v = ~~~v := by
  rw [aluNot, ← BitVec.allOnes_xor, BitVec.xor_comm]; rfl

theorem aluOr_eq (b a : Word) : aluOr b a = if b = 0 ∧ a = 0 then 0 else 1 := by
  by_cases h : b = 0 ∧ a = 0
  · rw [if_pos h, h.1, h.2]; rfl
  · have hbits : (!(a == 0 && b == 0)) = true := by simp; tauto
    rw [aluOr, if_neg h, hbits]; rfl

theorem aluAnd_eq (b a : Word) : aluAnd b a = if b ≠ 0 ∧ a ≠ 0 then 1 else 0 := by
  rw [← truthWord_decide, aluAnd]
  congr 1
  rw [Bool.and_comm]
  simp [bne, Bool.decide_and, beq_eq_decide]

/-- Settles O26: the complement, and the truth words of "not both zero" and "neither zero". -/
theorem notOrAndResults : Obligations.NotOrAndResults := fun _ hd =>
  ⟨fun h => exists_pushed_unaryOp hd h (aluNot_eq _),
    fun h => ⟨exists_pushed_binaryOp hd h (aluOr_eq _ _), exists_pushed_binaryOp hd h (aluAnd_eq _ _)⟩⟩

theorem aluEq_eq (left right : Word) : aluEq left right = if left = right then 1 else 0 := by
  rw [aluEq, ← truthWord_decide, beq_eq_decide]

theorem aluNe_eq (left right : Word) : aluNe left right = if left ≠ right then 1 else 0 := by
  rw [aluNe, ← truthWord_decide, bne, beq_eq_decide, decide_not]

/-- Settles O27: each pushes the truth word of its relation. -/
theorem comparisonResults : Obligations.ComparisonResults := fun _ hd h =>
  ⟨exists_pushed_binaryOp hd h (aluEq_eq _ _), exists_pushed_binaryOp hd h (aluNe_eq _ _),
    exists_pushed_binaryOp hd h (truthWord_decide _), exists_pushed_binaryOp hd h (truthWord_decide _),
    exists_pushed_binaryOp hd h (truthWord_decide _), exists_pushed_binaryOp hd h (truthWord_decide _)⟩

/-- On an empty stack a two-operand instruction works on two zeros and pops nothing. -/
theorem exists_pushed_binaryOp_of_empty {f : Word → Word → Word} (hd : DataWf s) (hsp : s.sp.toNat = Config.cap)
    (hsl : s.sl.toNat + 1 < Config.cap) (hf : f 0 0 = v) : ∃ t, binaryOp f s = .next t ∧ Pushed v s t := by
  have hpops : popTwo s = (0, 0, s) := popTwo_of_not_lt (by omega)
  have hpush : CanPush s := ⟨by omega, by omega⟩
  rw [binaryOp, hpops]
  exact exists_pushed hd hpush hf

/-- Settles O28: the word each instruction computes from two zeros. -/
theorem emptyStackSuppliesZeros : Obligations.EmptyStackSuppliesZeros := by
  intro s hd hsp hsl
  have push {f : Word → Word → Word} {v : Word} (hf : f 0 0 = v) : ∃ t, binaryOp f s = .next t ∧ Pushed v s t :=
    exists_pushed_binaryOp_of_empty hd hsp hsl hf
  have hpops : popTwo s = (0, 0, s) := popTwo_of_not_lt (by omega)
  have trap {f : Word → Word → Word} : divideOp f s = .next (s.raise .divideByZero 0) := by
    rw [divideOp_of_eq_zero (by rw [hpops]), hpops]
  simp only [List.forall_mem_cons, List.not_mem_nil, false_imp_iff, implies_true, and_true]
  exact ⟨⟨push rfl, push rfl, push rfl⟩, ⟨push rfl, push rfl, push rfl, push rfl, push rfl, push rfl, push rfl,
    push rfl, push rfl, push rfl, push rfl⟩, trap, trap⟩

/-! ## Bitwise operations and shifts -/

theorem aluOrb_getLsbD (left right : Word) (i : Nat) :
    (aluOrb left right).getLsbD i = (left.getLsbD i || right.getLsbD i) := by
  rw [aluOrb, BitVec.getLsbD_or, Bool.or_comm]

theorem aluAndb_getLsbD (left right : Word) (i : Nat) :
    (aluAndb left right).getLsbD i = (left.getLsbD i && right.getLsbD i) := by
  rw [aluAndb, BitVec.getLsbD_and, Bool.and_comm]

theorem aluXorb_getLsbD (left right : Word) (i : Nat) :
    (aluXorb left right).getLsbD i = Bool.xor (left.getLsbD i) (right.getLsbD i) := by
  rw [aluXorb, BitVec.getLsbD_xor, Bool.xor_comm]

/-- Settles O29: each pushes the bitwise combination, and so it reads back. -/
theorem bitwiseResults : Obligations.BitwiseResults := by
  intro s hd h
  obtain ⟨t, ht, pt⟩ := exists_pushed_binaryOp (f := aluOrb) hd h rfl
  obtain ⟨u, hu, pu⟩ := exists_pushed_binaryOp (f := aluAndb) hd h rfl
  obtain ⟨w, hw, pw⟩ := exists_pushed_binaryOp (f := aluXorb) hd h rfl
  refine ⟨t, u, w, ht, hu, hw, ?_⟩
  rw [pt.top_eq, pu.top_eq, pw.top_eq]
  exact ⟨pt, pu, pw, fun i _ => ⟨aluOrb_getLsbD _ _ i, aluAndb_getLsbD _ _ i, aluXorb_getLsbD _ _ i⟩⟩

theorem aluShl_eq (v : Word) : aluShl v = wrap (2 * (v.toNat : Int)) := by
  apply BitVec.eq_of_toNat_eq
  rw [aluShl, BitVec.toNat_append, BitVec.extractLsb'_toNat, wrap, BitVec.toNat_ofInt]
  simp only [BitVec.toNat_ofNat, Nat.shiftLeft_eq, Nat.shiftRight_zero]
  simp
  omega

/-- SHR is the logical shift by one bit. -/
theorem aluShr_eq (v : Word) : aluShr v = v >>> 1 := by
  apply BitVec.eq_of_getLsbD_eq
  intro i hi
  simp only [aluShr, BitVec.getLsbD_append, BitVec.getLsbD_extractLsb', BitVec.getLsbD_ushiftRight]
  by_cases h : i < 31
  · simp [h]
  · rw [if_neg h, BitVec.getLsbD_of_ge v (1 + i) (by omega)]
    simp

/-- SAR is the arithmetic shift by one bit. -/
theorem aluSar_eq (v : Word) : aluSar v = v.sshiftRight 1 := by
  apply BitVec.eq_of_getLsbD_eq
  intro i hi
  simp only [aluSar, BitVec.getLsbD_append, BitVec.getLsbD_extractLsb', BitVec.getLsbD_sshiftRight]
  by_cases h : i < 31
  · have h' : 1 + i < 32 := by omega
    simp [h, h', hi]
  · obtain rfl : i = 31 := by omega
    simp [BitVec.msb_eq_getLsbD_last]

theorem aluShr_toNat (v : Word) : (aluShr v).toNat = v.toNat / 2 := by
  rw [aluShr_eq, BitVec.toNat_ushiftRight, Nat.shiftRight_one]

theorem aluSar_toInt (v : Word) : (aluSar v).toInt = v.toInt.fdiv 2 := by
  rw [aluSar_eq, BitVec.toInt_sshiftRight, Int.shiftRight_eq_div_pow, Int.fdiv_eq_ediv_of_nonneg _ (by decide)]
  rfl

/-- Settles O30: the three shifts as numbers. -/
theorem shiftResults : Obligations.ShiftResults := by
  intro s hd h
  obtain ⟨t, ht, pt⟩ := exists_pushed_unaryOp (f := aluShr) hd h rfl
  obtain ⟨u, hu, pu⟩ := exists_pushed_unaryOp (f := aluSar) hd h rfl
  exact ⟨exists_pushed_unaryOp hd h (aluShl_eq _), ⟨t, _, ht, pt, aluShr_toNat _⟩, ⟨u, _, hu, pu, aluSar_toInt _⟩⟩

end Sys2Proof.Machine
end

section
/-! SUPPORT. Branches, subroutines, ports, traps and the cycle, each on its own (spec/40, spec/44 to spec/46, spec/60). -/

namespace Sys2Proof.Machine

/-! ## Control flow -/

theorem codeAddress_toNat (n : Operand) : (codeAddress n).toNat = n.toNat := by
  rw [codeAddress, BitVec.toNat_setWidth_of_le (by decide)]

/-- Settles O31, by the definitions of the two meanings. -/
theorem labelAndGotoResults : Obligations.LabelAndGotoResults := fun _ n =>
  ⟨rfl, _, rfl, codeAddress_toNat n, rfl⟩

/-- A conditional branch pops, and moves `pc` when the popped word is as wanted. -/
theorem branchOn_eq (taken : Word → Bool) (n : Operand) (s : State) :
    ∃ t, branchOn taken n s = .next t ∧ t.pc.toNat = (if taken (pop s).1 then n.toNat else s.pc.toNat) ∧
      t = { (pop s).2 with pc := t.pc } := by
  unfold branchOn
  split
  · exact ⟨_, rfl, codeAddress_toNat n, rfl⟩
  · exact ⟨_, rfl, by rw [pop_pc], rfl⟩

/-- Settles O32: GOFALSE wants the word 0, GOTRUE any other. -/
theorem conditionalBranchResults : Obligations.ConditionalBranchResults := by
  refine fun s n => ⟨?gofalse, ?gotrue⟩
  case gofalse =>
    obtain ⟨t, h, hpc, hframe⟩ := branchOn_eq (fun v => !isNonzero v) n s
    exact ⟨t, h, by simpa [isNonzero] using hpc, hframe⟩
  case gotrue =>
    obtain ⟨t, h, hpc, hframe⟩ := branchOn_eq isNonzero n s
    exact ⟨t, h, by simpa [isNonzero] using hpc, hframe⟩

theorem exec_ret_of_nil {s : State} (h : s.rs = []) :
    exec .ret s = .next (s.raise .returnStackEmpty (pointerInfo s.pc)) := by
  change execRet s = _
  rw [execRet, h]; rfl

theorem exec_ret_of_append {s : State} {rest : List Pointer} {a : Pointer} (h : s.rs = rest ++ [a]) :
    exec .ret s = .next ((s.setRs rest).setPc a) := by
  change execRet s = _
  rw [execRet, h, List.getLast?_concat, List.dropLast_concat]

/-- Settles O33: the return-address stack of this build is never full. -/
theorem gosubAndRetResults : Obligations.GosubAndRetResults :=
  ⟨fun _ n => ⟨_, rfl, codeAddress_toNat n, rfl⟩, fun _ _ _ h => exec_ret_of_append h⟩

theorem pointerInfo_toNat (p : Pointer) : (pointerInfo p).toNat = p.toNat := by
  rw [pointerInfo, BitVec.toNat_setWidth_of_le (by decide)]

/-- Settles O34: the recorded word has the value of `pc`. -/
theorem retOnEmptyStackTraps : Obligations.RetOnEmptyStackTraps := fun _ h =>
  ⟨_, exec_ret_of_nil h, pointerInfo_toNat _, rfl⟩

/-- Settles O36, by the check each of the two makes first. -/
theorem finiteBuildsTrap : Obligations.FiniteBuildsTrap := by
  refine ⟨fun _ _ _ h => if_pos h, fun d n s h => ?full, fun d n s h => ?room⟩
  case full => exact if_pos (decide_eq_true h)
  case room => exact if_neg (by simpa [returnStackFull] using h)

/-! ## Ports -/

/-- Settles O38, by the definition of the meaning. -/
theorem printAppendsToTheOutput : Obligations.PrintAppendsToTheOutput := fun s =>
  ⟨_, rfl, by rw [emit_out, pop_out], rfl⟩

theorem exec_read_of_some {s : State} {v : Word} (h : s.input[s.inpos]? = some v) :
    exec .read s = finish (push v { s with inpos := s.inpos + 1 }) := by
  change execRead s = _
  rw [execRead, takeInput_of_some h]

theorem exec_read_of_none {s : State} (h : s.input.length ≤ s.inpos) : exec .read s = .next (waitForInput s) := by
  change execRead s = _
  rw [execRead, takeInput_of_none h]

/-- Settles O39: the word is consumed, then its push is checked. -/
theorem readConsumesOneWord : Obligations.ReadConsumesOneWord := by
  intro s v hd hv
  rw [exec_read_of_some hv]
  exact ⟨fun h => exists_pushed hd h rfl,
    fun h => congrArg finish (push_of_collision (s := { s with inpos := s.inpos + 1 }) v h)⟩

/-! ## Traps -/

/-- Settles O41: trap entry writes the three status registers; the codes are evaluated. -/
theorem raiseStopsAndRecords : Obligations.RaiseStopsAndRecords := ⟨fun _ _ _ => ⟨rfl, rfl⟩, by decide⟩

/-- An instruction ends where its first push raises. -/
theorem exec_of_push_error {i : Instr} {s s' u : State} (hs : stateAtPush i s = some s')
    (hp : ∀ v, push v s' = .error u) : exec i s = .next u := by
  have ends (v : Word) : finish (push v s') = .next u := by rw [hp]; rfl
  cases i with
  | halt | pop | sto | label | goto | gofalse | gotrue | print | gosub | ret => cases hs
  | push | lvalue => cases hs; exact ends _
  | rvalue => cases hs; rw [exec_rvalue]; exact ends _
  | neg | not | shl | shr | sar => cases hs; exact ends _
  | add | sub | mpy | or | and | eq | ne | gt | ge | lt | le | orb | andb | xorb => cases hs; exact ends _
  | copy =>
    cases hs
    change execCopy s = _
    rw [execCopy, hp]; rfl
  | div | mod =>
    by_cases h0 : (popTwo s).2.1 = 0
    · rw [stateAtPush, if_pos h0] at hs; cases hs
    · rw [stateAtPush, if_neg h0] at hs; cases hs
      exact (divideOp_of_ne_zero h0).trans (ends _)
  | read =>
    obtain ⟨-, e⟩ | ⟨-, v, hv, e⟩ := takeInput_cases s
    · rw [stateAtPush, e] at hs; cases hs
    · rw [stateAtPush, e] at hs; cases hs
      rw [exec_read_of_some hv]; exact ends _

/-- Settles O42: a push at or below `sl` raises StackCollision whatever its word. -/
theorem everyPushCollides : Obligations.EveryPushCollides := fun _ _ _ hs h =>
  exec_of_push_error hs fun v => push_of_collision v h

/-! ## The cycle -/

theorem step_of_runs {i : Instr} {s : State} (h : Runs i s) : step s = exec i (incrementPc s) := by
  obtain ⟨hr, hpc, hd⟩ := h
  rw [step, cycle, if_neg (by simp [hr]), if_neg (Nat.not_le.2 hpc), hd]

/-- Settles O44: a code address does not overflow when incremented. -/
theorem stepRunsTheDecodedInstruction : Obligations.StepRunsTheDecodedInstruction := fun _ _ hr hpc hd _ =>
  ⟨step_of_runs ⟨hr, hpc, hd⟩, incrementPc_pc_toNat hpc⟩

/-- Placing a whole word at a code address writes it at `pc`. -/
theorem withFetchWord_toNat (s : State) (w : Word) (hpc : s.pc.toNat < Config.cap) :
    s.withFetchWord 32 w.toNat = { s with code := Memory.write Config.codeFill s.code s.pc.toNat w } := by
  have hw : BitVec.ofNat 32 (w.toNat % 2 ^ 32) = w := by
    rw [Nat.mod_eq_of_lt w.isLt, BitVec.ofNat_toNat, BitVec.setWidth_eq]
  rw [State.withFetchWord, hw, placeWord, if_pos hpc]

/-- Settles O45: the placed word is read back where the next cycle fetches. -/
theorem placedWordIsRunNext : Obligations.PlacedWordIsRunNext := by
  intro s w i hr hpc hc hd
  have hplace := withFetchWord_toNat s w hpc
  have hread := Memory.read_write_same hc w (a := s.pc.toNat)
  refine ⟨_, hplace, hread, fun a ha => Memory.read_write_other _ _ ha, ?_⟩
  rw [hplace]
  exact step_of_runs ⟨hr, hpc, (congrArg decode hread).trans hd⟩

/-- Settles O46: both are raised before any instruction runs. -/
theorem fetchAndDispatchTraps : Obligations.FetchAndDispatchTraps := by
  refine fun s hr => ⟨fun h => ?fetch, fun hpc h => ?dispatch⟩
  case fetch => rw [step, cycle, if_neg (by simp [hr]), if_pos h]; rfl
  case dispatch =>
    rw [step, cycle, if_neg (by simp [hr]), if_neg (Nat.not_le.2 hpc), fetchWord, decode_of_opcode_ge h]; rfl

/-- Settles O37: the step after HALT finds `run` cleared. -/
theorem haltClearsRun : Obligations.HaltClearsRun := by
  refine ⟨fun _ => rfl, fun s h => ?_⟩
  obtain ⟨-, hpc, -⟩ := id h
  exact ⟨_, step_of_runs h, rfl, incrementPc_pc_toNat hpc, step_of_stopped rfl⟩

/-- Settles O40: the wait takes the increment of `pc` back, and the delivered word is the next one. -/
theorem readWaitsForInput : Obligations.ReadWaitsForInput := by
  refine fun s v ⟨hruns, hnone⟩ => ⟨?wait, fun hpos hd h => ?taken⟩
  case wait => rw [step_of_runs hruns, exec_read_of_none (s := incrementPc s) hnone, waitForInput_incrementPc]
  case taken =>
    have hruns' : Runs .read (deliver [v] s) := hruns
    have hv : (incrementPc (deliver [v] s)).input[(incrementPc (deliver [v] s)).inpos]? = some v := by
      simp [hpos]
    rw [step_of_runs hruns', exec_read_of_some hv]
    exact exists_pushed hd h rfl

/-! ### Every instruction has a next state -/

theorem exists_finish (r : Attempt) : ∃ t, finish r = .next t := by
  cases r <;> exact ⟨_, rfl⟩

theorem exists_divideOp (f : Word → Word → Word) (s : State) : ∃ t, divideOp f s = .next t := by
  unfold divideOp
  split
  · exact ⟨_, rfl⟩
  · exact exists_finish _

theorem exists_exec (i : Instr) (s : State) : ∃ t, exec i s = .next t := by
  cases i with
  | halt | pop | label | goto | print | gosub => exact ⟨_, rfl⟩
  | push | lvalue | copy => exact exists_finish _
  | rvalue => rw [exec_rvalue]; exact exists_finish _
  | neg | not | shl | shr | sar => exact exists_finish _
  | add | sub | mpy | or | and | eq | ne | gt | ge | lt | le | orb | andb | xorb => exact exists_finish _
  | div | mod => exact exists_divideOp _ s
  | gofalse n => obtain ⟨t, h, -⟩ := branchOn_eq (fun v => !isNonzero v) n s; exact ⟨t, h⟩
  | gotrue n => obtain ⟨t, h, -⟩ := branchOn_eq isNonzero n s; exact ⟨t, h⟩
  | sto =>
    change ∃ t, execSto s = .next t
    unfold execSto
    split <;> exact ⟨_, rfl⟩
  | read =>
    obtain ⟨h, -⟩ | ⟨-, v, hv, -⟩ := takeInput_cases s
    · exact ⟨_, exec_read_of_none h⟩
    · rw [exec_read_of_some hv]; exact exists_finish _
  | ret =>
    change ∃ t, execRet s = .next t
    unfold execRet
    split <;> exact ⟨_, rfl⟩

/-- Settles O47, by the cases of a step. -/
theorem stepExistsExactlyWhileRunning : Obligations.StepExistsExactlyWhileRunning := by
  refine fun s => ⟨fun hr => ?_, step_of_stopped⟩
  obtain ⟨-, e⟩ | ⟨i, -, e⟩ | ⟨-, -, e⟩ := step_cases hr
  · exact ⟨_, e⟩
  · rw [e]; exact exists_exec i _
  · exact ⟨_, e⟩

end Sys2Proof.Machine
end

section
/-! SUPPORT. Frames, causes and whole-machine rules: what every effect of an instruction keeps, and from it what every
step keeps (spec/10_state.md R24, R32, spec/20_memory.md R52, spec/60_exceptions.md R160). -/

namespace Sys2Proof.Machine

variable {i : Instr} {s t u : State} {v : Word}

/-! ## The next states of a step -/

/-- Every next state of a step: a fetch trap, an effect of the instruction at `pc`, or a dispatch trap. -/
theorem step_next_cases (h : step s = .next t) :
    s.run = true ∧
    (t = s.raise .pcOutOfRange (pointerInfo s.pc) ∨
      (∃ i, Runs i s ∧ Effect (incrementPc s) i t) ∨
      (s.pc.toNat < Config.cap ∧ ∃ x, t = (incrementPc s).raise .unrecognizedOpcode x)) := by
  have hr : s.run = true := by
    by_contra hr
    rw [step_of_stopped (by simpa using hr)] at h
    cases h
  refine ⟨hr, ?_⟩
  obtain ⟨-, e⟩ | ⟨i, hi, e⟩ | ⟨hpc, -, e⟩ := step_cases hr <;> rw [e] at h
  · cases h; exact .inl rfl
  · exact .inr (.inl ⟨i, hi, exec_effect h⟩)
  · cases h; exact .inr (.inr ⟨hpc, _, rfl⟩)

/-! ## Which registers an instruction touches (R24) -/

/-- Two states that agree in every register but `sp` and the status, and in everything but data memory. -/
structure SameOffStack (s t : State) : Prop where
  pc : t.pc = s.pc
  sl : t.sl = s.sl
  rs : t.rs = s.rs
  code : t.code = s.code
  out : t.out = s.out
  input : t.input = s.input
  inpos : t.inpos = s.inpos

theorem SameOffStack.trans (h : SameOffStack s t) (h' : SameOffStack t u) : SameOffStack s u where
  pc := h'.pc.trans h.pc
  sl := h'.sl.trans h.sl
  rs := h'.rs.trans h.rs
  code := h'.code.trans h.code
  out := h'.out.trans h.out
  input := h'.input.trans h.input
  inpos := h'.inpos.trans h.inpos

theorem sameOffStack_raise (s : State) (c : Cause) (x : Word) : SameOffStack s (s.raise c x) :=
  ⟨rfl, rfl, rfl, rfl, rfl, rfl, rfl⟩

theorem sameOffStack_pop (s : State) : SameOffStack s (pop s).2 :=
  ⟨pop_pc s, pop_sl s, pop_rs s, pop_code s, pop_out s, pop_input s, pop_inpos s⟩

theorem sameOffStack_popTwo (s : State) : SameOffStack s (popTwo s).2.2 :=
  (sameOffStack_pop s).trans (sameOffStack_pop _)

theorem sameOffStack_afterPush (v : Word) (s : State) : SameOffStack s (afterPush v s) :=
  ⟨rfl, rfl, rfl, rfl, rfl, rfl, rfl⟩

theorem sameOffStack_finish_push (h : finish (push v s) = .next t) : SameOffStack s t := by
  obtain ⟨-, rfl⟩ | ⟨-, -, rfl⟩ | ⟨-, rfl⟩ := finish_push_cases h
  · exact sameOffStack_raise ..
  · exact sameOffStack_raise ..
  · exact sameOffStack_afterPush ..

/-- What R24's table says an instruction leaves unchanged, between the states before and after it. -/
structure Frame (i : Instr) (s t : State) : Prop where
  pc : writesPc i = false → (i = .read → s.inpos < s.input.length) → t.pc = s.pc
  sp : leavesSp i = true → t.sp = s.sp
  sl : i ≠ .sto → t.sl = s.sl
  rs : (∀ n, i ≠ .gosub n) → i ≠ .ret → t.rs = s.rs
  data : leavesData i = true → t.data = s.data
  out : i ≠ .print → t.out = s.out
  inpos : i ≠ .read → t.inpos = s.inpos
  code : t.code = s.code
  input : t.input = s.input

/-- An instruction that touches the stack and nothing else. -/
theorem SameOffStack.frame (h : SameOffStack s t) (hsp : leavesSp i = false)
    (hdata : leavesData i = true → t.data = s.data) : Frame i s t where
  pc _ _ := h.pc
  sp h' := by rw [hsp] at h'; cases h'
  sl _ := h.sl
  rs _ _ := h.rs
  data := hdata
  out _ := h.out
  inpos _ := h.inpos
  code := h.code
  input := h.input

/-- An instruction that pushes touches `sp` and data memory. -/
theorem SameOffStack.frame_of_pushShape (h : SameOffStack s t) (hi : pushShape i ≠ .other) : Frame i s t := by
  obtain ⟨hsp, hdata⟩ : leavesSp i = false ∧ leavesData i = false := by
    cases i <;> simp [pushShape, leavesSp, leavesData] at hi ⊢
  exact h.frame hsp fun h' => by rw [hdata] at h'; cases h'

/-- Every effect stays within R24's table. -/
theorem Effect.frame (e : Effect s i t) : Frame i s t := by
  cases e with
  | pushes v hi h => exact (sameOffStack_finish_push h).frame_of_pushShape (by rw [hi]; decide)
  | unary v hi h =>
    exact ((sameOffStack_pop s).trans (sameOffStack_finish_push h)).frame_of_pushShape (by rw [hi]; decide)
  | binary v hi _ h =>
    exact ((sameOffStack_popTwo s).trans (sameOffStack_finish_push h)).frame_of_pushShape (by rw [hi]; decide)
  | divideTrap hi =>
    exact ((sameOffStack_popTwo s).trans (sameOffStack_raise ..)).frame_of_pushShape
      (by obtain rfl | rfl := hi <;> decide)
  | copyFirst _ h => exact ((sameOffStack_pop s).trans (sameOffStack_finish_push h)).frame rfl nofun
  | copySecond _ h =>
    exact (((sameOffStack_pop s).trans (sameOffStack_afterPush ..)).trans (sameOffStack_finish_push h)).frame rfl nofun
  | pops => exact (sameOffStack_pop s).frame rfl fun _ => pop_data s
  | storeTrap => exact ((sameOffStack_popTwo s).trans (sameOffStack_raise ..)).frame rfl nofun
  | fallsThrough n hi =>
    exact (sameOffStack_pop s).frame (by obtain rfl | rfl := hi <;> rfl) fun _ => pop_data s
  | branches n hi =>
    obtain rfl | rfl := hi <;> constructor <;> simp [writesPc, leavesSp]
  | reads v hv h =>
    have hoff := sameOffStack_finish_push h
    exact ⟨fun _ _ => hoff.pc, nofun, fun _ => hoff.sl, fun _ _ => hoff.rs, nofun, fun _ => hoff.out, nofun,
      hoff.code, hoff.input⟩
  | readWaits h => constructor <;> simp [writesPc, leavesSp, leavesData]; omega
  | stores | prints | halt | label | goto | gosub | ret | retTrap =>
    constructor <;> simp [writesPc, leavesSp, leavesData]

/-- Settles O49, one clause per register. -/
theorem instructionsTouchOnlyTheirRegisters : Obligations.InstructionsTouchOnlyTheirRegisters := by
  intro i s t h
  obtain ⟨hpc, hsp, hsl, hrs, hdata, hout, hinpos, hcode, hinput⟩ := (exec_effect h).frame
  exact ⟨hpc, hsp, hsl, hrs, hdata, hout, hinpos, hcode, hinput⟩

/-- Settles O52: a trap writes the status only, and no instruction writes code memory or the input. -/
theorem noStepChangesCodeOrInput : Obligations.NoStepChangesCodeOrInput := by
  intro s t h
  obtain ⟨-, rfl | ⟨i, -, e⟩ | ⟨-, x, rfl⟩⟩ := step_next_cases h
  · exact ⟨rfl, rfl⟩
  · exact ⟨e.frame.code, e.frame.input⟩
  · exact ⟨rfl, rfl⟩

/-- A STO does not lower the high-water mark. -/
theorem le_recordStore_sl {a : Nat} (ha : a < Config.cap) : s.sl.toNat ≤ (recordStore a s).sl.toNat := by
  rw [recordStore_sl_toNat s ha]; exact le_max_left _ _

theorem lt_cap_of_storeAddress {w : Word} {a : Nat} (h : storeAddress w = some a) : a < Config.cap := by
  unfold storeAddress at h
  split at h
  · cases h; omega
  · cases h

/-- What an instruction does to the histories and to the high-water mark. -/
theorem Effect.histories (e : Effect s i t) :
    s.sl.toNat ≤ t.sl.toNat ∧ (t.out = s.out ∨ (i = .print ∧ ∃ v, t.out = s.out ++ [v])) ∧
      (t.inpos = s.inpos ∨ (i = .read ∧ t.inpos = s.inpos + 1)) := by
  refine ⟨?mark, ?output, ?consumed⟩
  case mark =>
    by_cases hi : i = .sto
    · subst hi
      cases e with
      | stores a ha =>
        calc s.sl.toNat = (writeData (popTwo s).2.2 a (popTwo s).2.1).sl.toNat := by rw [writeData_sl, popTwo_sl]
          _ ≤ _ := le_recordStore_sl (lt_cap_of_storeAddress ha)
      | storeTrap => rw [State.raise_sl, popTwo_sl]
      | branches _ h | fallsThrough _ h => simp at h
      | _ => contradiction
    · rw [e.sl_eq hi]
  case output =>
    by_cases hi : i = .print
    · subst hi
      cases e with
      | prints => exact .inr ⟨rfl, _, by rw [emit_out, pop_out]⟩
      | branches _ h | fallsThrough _ h => simp at h
      | _ => contradiction
    · exact .inl (e.frame.out hi)
  case consumed =>
    by_cases hi : i = .read
    · subst hi
      cases e with
      | readWaits => exact .inl rfl
      | reads v hv h => exact .inr ⟨rfl, (sameOffStack_finish_push h).inpos⟩
      | branches _ h | fallsThrough _ h => simp at h
      | _ => contradiction
    · exact .inl (e.frame.inpos hi)

/-- Settles O55: a trap touches neither history, and an instruction only as its effect says. -/
theorem historiesOnlyGrow : Obligations.HistoriesOnlyGrow := by
  intro s t h
  obtain ⟨-, rfl | ⟨i, hi, e⟩ | ⟨-, x, rfl⟩⟩ := step_next_cases h
  · exact ⟨le_rfl, .inl rfl, .inl rfl⟩
  · obtain ⟨hsl, hout, hpos⟩ := e.histories
    exact ⟨hsl, hout.imp_right fun ⟨hp, hv⟩ => ⟨hp ▸ hi, hv⟩, hpos.imp_right fun ⟨hp, hv⟩ => ⟨hp ▸ hi, hv⟩⟩
  · exact ⟨le_rfl, .inl rfl, .inl rfl⟩

/-! ## Where data memory changes (R52) -/

/-- A push writes its candidate cell or nothing. -/
theorem readData_finish_push {a : Nat} (h : finish (push v s) = .next t) (ha : a ≠ (pushTarget s).toNat) :
    readData t a = readData s a := by
  rw [pushTarget_toNat] at ha
  obtain ⟨-, rfl⟩ | ⟨-, -, rfl⟩ | ⟨-, rfl⟩ := finish_push_cases h
  · rfl
  · rfl
  · exact readData_afterPush_other ha v

/-- The cell of COPY's second push is one below that of the first. -/
theorem pushTarget_afterPush (h : CanPush s) (v : Word) :
    (pushTarget (afterPush v s)).toNat = (pushTarget s - 1).toNat := by
  rw [pushTarget_toNat, afterPush_sp_toNat h, pushTarget]
  omega

theorem stateAtPush_of_plain (hi : pushShape i = .plain) (s : State) : stateAtPush i s = some s := by
  cases i with
  | push | rvalue | lvalue => rfl
  | _ => cases hi

theorem stateAtPush_of_unary (hi : pushShape i = .unary) (s : State) : stateAtPush i s = some (pop s).2 := by
  cases i with
  | neg | not | shl | shr | sar => rfl
  | _ => cases hi

theorem stateAtPush_of_binary (hi : pushShape i = .binary) (hd : i = .div ∨ i = .mod → (popTwo s).2.1 ≠ 0) :
    stateAtPush i s = some (popTwo s).2.2 := by
  cases i with
  | add | sub | mpy | or | and | eq | ne | gt | ge | lt | le | orb | andb | xorb => rfl
  | div => exact if_neg (hd (.inl rfl))
  | mod => exact if_neg (hd (.inr rfl))
  | _ => cases hi

/-- An instruction with one push stores at that push's cell. -/
theorem mem_storedAddresses_iff {a : Nat} (hsto : i ≠ .sto) (hcopy : i ≠ .copy) (h : stateAtPush i s = some u) :
    a ∈ storedAddresses i s ↔ a = (pushTarget u).toNat := by
  rw [storedAddresses, if_neg hsto, if_neg hcopy, h]
  exact List.mem_singleton

/-- STO and COPY, which store elsewhere, have no such shape. -/
theorem ne_sto_and_ne_copy_of_pushShape (hi : pushShape i ≠ .other) : i ≠ .sto ∧ i ≠ .copy :=
  ⟨fun h => hi (h ▸ rfl), fun h => hi (h ▸ rfl)⟩

/-- An instruction whose one push is made in the state `u` leaves the words outside its cell as they are in `u`. -/
theorem readData_of_not_mem_storedAddresses {a : Nat} (hi : pushShape i ≠ .other) (hu : stateAtPush i s = some u)
    (ha : a ∉ storedAddresses i s) (h : finish (push v u) = .next t) : readData t a = readData u a := by
  obtain ⟨hsto, hcopy⟩ := ne_sto_and_ne_copy_of_pushShape hi
  exact readData_finish_push h (mt (mem_storedAddresses_iff hsto hcopy hu).2 ha)

/-- Every effect leaves data memory alone outside the stored addresses. -/
theorem Effect.readData_eq (e : Effect s i t) {a : Nat} (ha : a ∉ storedAddresses i s) :
    readData t a = readData s a := by
  cases e with
  | pushes v hi h => exact readData_of_not_mem_storedAddresses (by rw [hi]; decide) (stateAtPush_of_plain hi s) ha h
  | unary v hi h =>
    rw [readData_of_not_mem_storedAddresses (by rw [hi]; decide) (stateAtPush_of_unary hi s) ha h, readData_pop]
  | binary v hi hd h =>
    rw [readData_of_not_mem_storedAddresses (by rw [hi]; decide) (stateAtPush_of_binary hi hd) ha h, readData_popTwo]
  | copyFirst hc h =>
    have hne : a ≠ (pushTarget (pop s).2).toNat := fun heq => ha (heq ▸ List.mem_cons_self)
    exact (readData_finish_push h hne).trans (readData_pop s a)
  | copySecond hc h =>
    have hne : a ≠ (pushTarget (pop s).2).toNat := fun heq => ha (heq ▸ List.mem_cons_self)
    have hne' : a ≠ (pushTarget (pop s).2 - 1).toNat := fun heq => ha (heq ▸ by simp [storedAddresses])
    rw [readData_finish_push h (by rwa [pushTarget_afterPush hc]),
      readData_afterPush_other (by rwa [← pushTarget_toNat]), readData_pop]
  | reads v hv h =>
    have htake : stateAtPush .read s = some { s with inpos := s.inpos + 1 } :=
      congrArg (Option.map Prod.snd) (takeInput_of_some hv)
    exact readData_finish_push (s := { s with inpos := s.inpos + 1 }) h
      (mt (mem_storedAddresses_iff (i := .read) nofun nofun htake).2 ha)
  | stores b hb =>
    have hne : a ≠ b := by
      rintro rfl
      exact ha (by simp [storedAddresses, hb])
    rw [readData_recordStore, readData_writeData_other _ _ hne, readData_popTwo]
  | pops | fallsThrough | branches | prints => exact readData_pop s a
  | storeTrap | divideTrap => exact readData_popTwo s a
  | halt | label | goto | readWaits | gosub | ret | retTrap => rfl

/-- Settles O50, by the cell of each push and the address of STO. -/
theorem dataChangesOnlyWhereStored : Obligations.DataChangesOnlyWhereStored := fun _ _ _ h _ ha =>
  (exec_effect h).readData_eq ha

/-! ## General storage (R29, R47) -/

/-- The collision check: a push never lands at or below `sl`. -/
theorem readData_finish_push_of_le_sl {a : Nat} (h : finish (push v s) = .next t) (ha : a ≤ s.sl.toNat) :
    readData t a = readData s a := by
  obtain ⟨-, rfl⟩ | ⟨-, -, rfl⟩ | ⟨⟨hlt, -⟩, rfl⟩ := finish_push_cases h
  · rfl
  · rfl
  · exact readData_afterPush_other (by omega) v

/-- Every effect but that of STO leaves general storage alone: each push is made with the `sl` of the state before. -/
theorem Effect.readData_of_le_sl (e : Effect s i t) (hi : i ≠ .sto) {a : Nat} (ha : a ≤ s.sl.toNat) :
    readData t a = readData s a := by
  have hpop : a ≤ (pop s).2.sl.toNat := by rwa [pop_sl]
  have hpopTwo : a ≤ (popTwo s).2.2.sl.toNat := by rwa [popTwo_sl]
  cases e with
  | stores | storeTrap => exact absurd rfl hi
  | pushes v _ h => exact readData_finish_push_of_le_sl h ha
  | reads v _ h => exact readData_finish_push_of_le_sl (s := { s with inpos := s.inpos + 1 }) h ha
  | unary v _ h | copyFirst _ h => exact (readData_finish_push_of_le_sl h hpop).trans (readData_pop s a)
  | copySecond hc h =>
    have hlt : a < (pop s).2.sp.toNat - 1 := by have := hc.1; omega
    rw [readData_finish_push_of_le_sl h hpop, readData_afterPush_other hlt.ne, readData_pop]
  | binary v _ _ h => exact (readData_finish_push_of_le_sl h hpopTwo).trans (readData_popTwo s a)
  | pops | fallsThrough | branches | prints => exact readData_pop s a
  | divideTrap => exact readData_popTwo s a
  | halt | label | goto | readWaits | gosub | ret | retTrap => rfl

/-- Settles O53: a trap stores nothing, and every push of an instruction lands above `sl`. -/
theorem pushesNeverHitGeneralStorage : Obligations.PushesNeverHitGeneralStorage := by
  intro s t a h hsto ha
  obtain ⟨-, rfl | ⟨i, hi, e⟩ | ⟨-, x, rfl⟩⟩ := step_next_cases h
  · rfl
  · exact e.readData_of_le_sl (fun his => hsto (his ▸ hi)) ha
  · rfl

/-! ## The stack stays above storage (R32 (f)) -/

theorem stackAboveStorage_pop (h : StackAboveStorage s) : StackAboveStorage (pop s).2 := by
  rw [StackAboveStorage, pop_sp_toNat, pop_sl]
  split <;> omega

theorem stackAboveStorage_popTwo (h : StackAboveStorage s) : StackAboveStorage (popTwo s).2.2 :=
  stackAboveStorage_pop (stackAboveStorage_pop h)

theorem stackAboveStorage_finish_push (h : StackAboveStorage s) (hp : finish (push v s) = .next t) :
    StackAboveStorage t := by
  obtain ⟨-, rfl⟩ | ⟨-, -, rfl⟩ | ⟨hc, rfl⟩ := finish_push_cases hp
  · exact h
  · exact h
  · refine .inr ?_
    rw [afterPush_sp_toNat hc, State.setSp_sl, writeData_sl]
    have := hc.1
    omega

/-- Only a STO at or above the stack pointer can bring `sl` up to it. -/
theorem Effect.stackAboveStorage (e : Effect s i t) (h : StackAboveStorage s)
    (hsto : i = .sto → ∀ a, storeAddress (popTwo s).1 = some a → a < t.sp.toNat) : StackAboveStorage t := by
  cases e with
  | stores a ha =>
    have hlt := hsto rfl a ha
    have hstack := stackAboveStorage_popTwo h
    rw [StackAboveStorage, recordStore_sl_toNat _ (lt_cap_of_storeAddress ha)]
    rw [recordStore_sp, writeData_sp] at hlt ⊢
    rw [writeData_sl]
    exact hstack.imp_right fun hsl => max_lt hsl hlt
  | pushes v _ hp => exact stackAboveStorage_finish_push h hp
  | reads v _ hp => exact stackAboveStorage_finish_push (s := { s with inpos := s.inpos + 1 }) h hp
  | unary v _ hp | copyFirst _ hp => exact stackAboveStorage_finish_push (stackAboveStorage_pop h) hp
  | copySecond hc hp =>
    have hfirst := push_of_canPush (pop s).1 hc
    have habove := stackAboveStorage_finish_push (stackAboveStorage_pop h) (congrArg finish hfirst)
    exact stackAboveStorage_finish_push habove hp
  | binary v _ _ hp => exact stackAboveStorage_finish_push (stackAboveStorage_popTwo h) hp
  | pops | fallsThrough | branches | prints => exact stackAboveStorage_pop h
  | storeTrap | divideTrap => exact stackAboveStorage_popTwo h
  | halt | label | goto | readWaits | gosub | ret | retTrap => exact h

/-- The pops do not look at `pc`. -/
theorem popTwo_incrementPc_fst (s : State) : (popTwo (incrementPc s)).1 = (popTwo s).1 := by
  have hpop : ∀ s : State, pop (incrementPc s) = ((pop s).1, incrementPc (pop s).2) := fun s => by
    unfold pop; rw [incrementPc_sp]; split <;> rfl
  rw [popTwo, hpop, hpop]; rfl

/-- Settles O54: a trap moves neither register, and the pops of a STO are those before the increment of `pc`. -/
theorem stackStaysAboveStorage : Obligations.StackStaysAboveStorage := by
  intro s t _ habove h hsto
  obtain ⟨-, rfl | ⟨i, hi, e⟩ | ⟨-, x, rfl⟩⟩ := step_next_cases h
  · exact habove
  · refine e.stackAboveStorage habove fun his => ?_
    rw [popTwo_incrementPc_fst]
    exact hsto (his ▸ hi)
  · exact habove

/-! ## Causes (R160) -/

/-- The machine has stopped with a cause listed for the instruction; StackExhausted needs a pointer above `CAP`. -/
def Raised (i : Instr) (s t : State) : Prop :=
  t.run = false ∧ t.cause ∈ mayRaise i ∧ (t.cause = .stackExhausted → Config.cap < s.sp.toNat)

/-- The status registers as they were. -/
def StatusKept (s t : State) : Prop := t.cause = s.cause ∧ t.info = s.info ∧ t.run = s.run

/-- How an instruction that pushes ends, from how its push ends: pops before the push keep the status, and leave a
pointer above `CAP` only if it was there before. -/
theorem raised_or_kept_of_finish_push (hi : Cause.stackCollision ∈ mayRaise i ∧ Cause.stackExhausted ∈ mayRaise i)
    (hs : StatusKept s u) (hsp : Config.cap < u.sp.toNat → Config.cap < s.sp.toNat)
    (h : finish (push v u) = .next t) : Raised i s t ∨ StatusKept s t := by
  obtain ⟨-, rfl⟩ | ⟨-, hgt, rfl⟩ | ⟨-, rfl⟩ := finish_push_cases h
  · exact .inl ⟨rfl, hi.1, nofun⟩
  · exact .inl ⟨rfl, hi.2, fun _ => hsp hgt⟩
  · exact .inr hs

theorem mayRaise_of_pushShape (hi : pushShape i ≠ .other) :
    Cause.stackCollision ∈ mayRaise i ∧ Cause.stackExhausted ∈ mayRaise i := by
  cases i <;> simp [pushShape, mayRaise] at hi ⊢

theorem statusKept_pop (s : State) : StatusKept s (pop s).2 := ⟨pop_cause s, pop_info s, pop_run s⟩

theorem statusKept_popTwo (s : State) : StatusKept s (popTwo s).2.2 := ⟨popTwo_cause s, popTwo_info s, popTwo_run s⟩

theorem StatusKept.afterPush (h : StatusKept s u) : StatusKept s (afterPush v u) := h

theorem cap_lt_of_pop (h : Config.cap < (pop s).2.sp.toNat) : Config.cap < s.sp.toNat := by
  rw [pop_sp_toNat] at h
  split at h <;> omega

theorem cap_lt_of_popTwo (h : Config.cap < (popTwo s).2.2.sp.toNat) : Config.cap < s.sp.toNat :=
  cap_lt_of_pop (cap_lt_of_pop h)

/-- Every effect but HALT's raises a listed cause or leaves the status registers alone. -/
theorem Effect.raised_or_kept (e : Effect s i t) (hi : i ≠ .halt) : Raised i s t ∨ StatusKept s t := by
  cases e with
  | halt => exact absurd rfl hi
  | pushes v hs h =>
    exact raised_or_kept_of_finish_push (mayRaise_of_pushShape (by rw [hs]; decide)) ⟨rfl, rfl, rfl⟩ id h
  | unary v hs h =>
    exact raised_or_kept_of_finish_push (mayRaise_of_pushShape (by rw [hs]; decide)) (statusKept_pop s) cap_lt_of_pop h
  | binary v hs _ h =>
    exact raised_or_kept_of_finish_push (mayRaise_of_pushShape (by rw [hs]; decide)) (statusKept_popTwo s)
      cap_lt_of_popTwo h
  | copyFirst _ h => exact raised_or_kept_of_finish_push (by decide) (statusKept_pop s) cap_lt_of_pop h
  | copySecond hc h =>
    refine raised_or_kept_of_finish_push (by decide) (statusKept_pop s).afterPush (fun hgt => ?_) h
    rw [afterPush_sp_toNat hc] at hgt
    obtain ⟨-, hle⟩ := hc
    omega
  | reads v _ h =>
    exact raised_or_kept_of_finish_push (u := { s with inpos := s.inpos + 1 }) (by decide) ⟨rfl, rfl, rfl⟩ id h
  | storeTrap | retTrap => exact .inl ⟨rfl, List.mem_singleton_self _, nofun⟩
  | divideTrap hdm => exact .inl ⟨rfl, by obtain rfl | rfl := hdm <;> exact List.mem_cons_self, nofun⟩
  | pops | fallsThrough | branches | prints => exact .inr (statusKept_pop s)
  | stores => exact .inr (statusKept_popTwo s)
  | label | goto | readWaits | gosub | ret => exact .inr ⟨rfl, rfl, rfl⟩

/-- HALT too leaves the cause alone. -/
theorem Effect.raised_or_cause_eq (e : Effect s i t) : Raised i s t ∨ t.cause = s.cause := by
  by_cases hi : i = .halt
  · subst hi
    cases e with
    | halt => exact .inr rfl
    | branches _ h | fallsThrough _ h => simp at h
    | _ => contradiction
  · exact (e.raised_or_kept hi).imp_right And.left

/-- Settles O43: HALT clears `run` alone, and every other effect raises or leaves the status as it was. -/
theorem onlyListedCausesAreRaised : Obligations.OnlyListedCausesAreRaised := by
  intro i s t h
  by_cases hi : i = .halt
  · subst hi; cases h
    exact .inr ⟨rfl, rfl, fun hne => absurd rfl hne⟩
  · exact ((exec_effect h).raised_or_kept hi).imp (fun ⟨hrun, hc, _⟩ => ⟨hrun, hc⟩)
      fun ⟨hc, hx, hrun⟩ => ⟨hc, hx, fun _ => hrun⟩

theorem returnStackEmpty_mem_mayRaise (h : Cause.returnStackEmpty ∈ mayRaise i) : i = .ret := by
  cases i <;> simp [mayRaise] at h ⊢

/-- Settles O35: the cause is listed for RET alone, and a RET that finds an address raises nothing. -/
theorem returnStackEmptyIsRaisedByRetOnly : Obligations.ReturnStackEmptyIsRaisedByRetOnly := by
  refine ⟨fun s h => ⟨_, exec_ret_of_nil h, rfl, rfl, step_of_stopped rfl⟩, fun i s t h hs ht => ?_⟩
  obtain ⟨-, hmem⟩ | ⟨hkept, -⟩ := onlyListedCausesAreRaised i s t h
  · obtain rfl : i = .ret := returnStackEmpty_mem_mayRaise (ht ▸ hmem)
    refine ⟨rfl, ?_⟩
    obtain hnil | ⟨rest, a, happ⟩ := s.rs.eq_nil_or_concat
    · exact hnil
    · rw [exec_ret_of_append (by simpa using happ)] at h
      cases h
      exact absurd ht hs
  · exact absurd (hkept ▸ ht) hs

/-! ## The invariant (R32) -/

theorem Inv.raise (h : Inv s) {c : Cause} (hc : c ≠ .none) (x : Word) : Inv (s.raise c x) :=
  { h with stopped_of_cause := fun _ => rfl, info_zero := fun h' => absurd h' hc }

theorem Inv.setPc (h : Inv s) {p : Pointer} (hp : p.toNat ≤ Config.cap) : Inv (s.setPc p) := { h with pc_le := hp }

theorem Inv.setSp (h : Inv s) {p : Pointer} (hp : 1 ≤ p.toNat) (hp' : p.toNat ≤ Config.cap) : Inv (s.setSp p) :=
  { h with sp_pos := hp, sp_le := hp' }

theorem Inv.setRs (h : Inv s) {r : List Pointer} (hr : ∀ p ∈ r, 1 ≤ p.toNat ∧ p.toNat ≤ Config.cap) :
    Inv (s.setRs r) :=
  { h with rs_range := hr }

theorem Inv.writeData (h : Inv s) {a : Nat} (ha : a < Config.cap) (v : Word) : Inv (Machine.writeData s a v) :=
  { h with data_wf := dataWf_writeData h.data_wf v ha }

theorem Inv.pop (h : Inv s) : Inv (pop s).2 := by
  have hle := h.sp_le
  have hpos := h.sp_pos
  rw [pop_frame]
  refine h.setSp ?_ ?_ <;> rw [pop_sp_toNat] <;> split <;> omega

theorem Inv.popTwo (h : Inv s) : Inv (popTwo s).2.2 := h.pop.pop

theorem Inv.afterPush (h : Inv s) (hc : CanPush s) (v : Word) : Inv (afterPush v s) := by
  have hsp := sp_sub_one_toNat hc
  obtain ⟨hlt, hle⟩ := hc
  exact (h.writeData (by omega) v).setSp (by omega) (by omega)

theorem Inv.finish_push (h : Inv s) (hp : finish (push v s) = .next t) : Inv t := by
  obtain ⟨-, rfl⟩ | ⟨-, -, rfl⟩ | ⟨hc, rfl⟩ := finish_push_cases hp
  · exact h.raise (by decide) _
  · exact h.raise (by decide) _
  · exact h.afterPush hc v

theorem Inv.takeInput (h : Inv s) (hv : s.input[s.inpos]? = some v) : Inv { s with inpos := s.inpos + 1 } :=
  { h with inpos_le := (List.getElem?_eq_some_iff.1 hv).1 }

theorem Inv.incrementPc (h : Inv s) (hpc : s.pc.toNat < Config.cap) : Inv (incrementPc s) :=
  h.setPc ((incrementPc_pc_toNat hpc).trans_le hpc)

/-- Every effect keeps the invariant, from a state whose `pc` the cycle has incremented. -/
theorem Effect.inv (e : Effect s i t) (h : Inv s) (hpc : 1 ≤ s.pc.toNat) : Inv t := by
  have hcode (n : Operand) : (codeAddress n).toNat ≤ Config.cap := by
    rw [codeAddress_toNat]; exact n.isLt.le
  cases e with
  | halt => exact { h with stopped_of_cause := fun _ => rfl }
  | pushes v _ hp => exact h.finish_push hp
  | unary v _ hp | copyFirst _ hp => exact h.pop.finish_push hp
  | copySecond hc hp => exact (h.pop.afterPush hc _).finish_push hp
  | binary v _ _ hp => exact h.popTwo.finish_push hp
  | reads v hv hp => exact (h.takeInput hv).finish_push hp
  | pops | fallsThrough => exact h.pop
  | stores a ha => exact { h.popTwo.writeData (lt_cap_of_storeAddress ha) (Machine.popTwo s).2.1 with }
  | storeTrap => exact h.popTwo.raise (by decide) _
  | divideTrap => exact h.popTwo.raise (by decide) _
  | label => exact h
  | goto n => exact h.setPc (hcode n)
  | branches n => exact h.pop.setPc (hcode n)
  | prints => exact { h.pop with }
  | readWaits =>
    refine h.setPc ?_
    have hle := h.pc_le
    rw [BitVec.toNat_sub_of_le hpc]
    omega
  | gosub n =>
    refine (h.setRs fun p hp => ?_).setPc (hcode n)
    obtain hp | hp := List.mem_append.1 hp
    · exact h.rs_range p hp
    · rw [List.mem_singleton.1 hp]; exact ⟨hpc, h.pc_le⟩
  | ret a ha =>
    exact (h.setRs fun p hp => h.rs_range p (List.mem_of_mem_dropLast hp)).setPc
      (h.rs_range a (List.mem_of_getLast? ha)).2
  | retTrap => exact h.raise (by decide) _

/-- Settles O51: a trap records a cause and stops, and an instruction runs with `pc` incremented. -/
theorem everyStepKeepsTheInvariant : Obligations.EveryStepKeepsTheInvariant := by
  intro s t h hstep
  obtain ⟨-, rfl | ⟨i, ⟨-, hpc, -⟩, e⟩ | ⟨hpc, x, rfl⟩⟩ := step_next_cases hstep
  · exact h.raise (by decide) _
  · exact e.inv (h.incrementPc hpc) (by rw [incrementPc_pc_toNat hpc]; omega)
  · exact (h.incrementPc hpc).raise (by decide) _

/-- A running machine has no cause recorded. -/
theorem Inv.cause_eq_none (h : Inv s) (hr : s.run = true) : s.cause = .none := by
  by_contra hc
  rw [h.stopped_of_cause hc] at hr
  cases hr

theorem returnStackOverflow_not_mem_mayRaise (i : Instr) : Cause.returnStackOverflow ∉ mayRaise i := by
  cases i <;> simp [mayRaise]

/-- Settles O56: ReturnStackOverflow is listed for no instruction, and StackExhausted needs a pointer above `CAP`. -/
theorem unreachableCausesAreNotRaised : Obligations.UnreachableCausesAreNotRaised := by
  intro s t h hstep
  obtain ⟨hr, rfl | ⟨i, -, e⟩ | ⟨-, x, rfl⟩⟩ := step_next_cases hstep
  · exact ⟨nofun, nofun⟩
  · have hcause : (incrementPc s).cause = .none := h.cause_eq_none hr
    obtain ⟨-, hmem, hex⟩ | hkept := e.raised_or_cause_eq
    · exact ⟨fun ht => absurd h.sp_le (Nat.not_le.2 (hex ht)),
        fun ht => returnStackOverflow_not_mem_mayRaise i (ht ▸ hmem)⟩
    · rw [hkept, hcause]; exact ⟨nofun, nofun⟩
  · exact ⟨nofun, nofun⟩

end Sys2Proof.Machine
end

section
/-! SUPPORT. The outcomes of a cycle (spec/00_scope.md R7), what has no influence on a step, and runs of a few steps. -/

namespace Sys2Proof.Machine

variable {i : Instr} {s t : State} {a b : Operand}

/-! ## Outcomes (R7) -/

theorem waitsCheck_iff (s : State) : waitsCheck s = true ↔ Waits s := by
  have hread : ((decode (fetchWord s)).toOption == some .read) = true ↔ decode (fetchWord s) = .ok .read := by
    cases decode (fetchWord s) <;> simp [Except.toOption]
  simp only [waitsCheck, Bool.and_eq_true, decide_eq_true_eq, hread, Waits, Runs, and_assoc]

theorem cycleOutcome_of_stopped (h : s.run = false) : cycleOutcome s = .terminal := by
  rw [cycleOutcome, step_of_stopped h]

theorem cycleOutcome_of_waits (h : Waits s) (hstep : step s = .next t) : cycleOutcome s = .blocked := by
  rw [cycleOutcome, hstep]
  exact if_pos ((waitsCheck_iff s).2 h)

theorem cycleOutcome_of_not_waits (h : ¬ Waits s) (hstep : step s = .next t) :
    cycleOutcome s = if t.run then .next t else if t.cause = .none then .halted t else .faulted t.cause t.info t := by
  rw [cycleOutcome, hstep]
  exact if_neg (mt (waitsCheck_iff s).1 h)

/-- Two instructions cannot stand at `pc`. -/
theorem Runs.unique {j : Instr} (h : Runs i s) (h' : Runs j s) : i = j := by
  obtain ⟨-, -, hd⟩ := h
  obtain ⟨-, -, hd'⟩ := h'
  exact Except.ok.inj (hd.symm.trans hd')

theorem none_not_mem_mayRaise (i : Instr) : Cause.none ∉ mayRaise i := by
  cases i <;> simp [mayRaise]

/-- A step stops the machine without a cause exactly when it runs HALT. -/
theorem stops_without_cause_iff (h : Inv s) (hstep : step s = .next t) :
    (t.run = false ∧ t.cause = .none) ↔ Runs .halt s := by
  constructor
  · rintro ⟨hrun, hcause⟩
    obtain ⟨hr, rfl | ⟨i, hi, e⟩ | ⟨-, x, rfl⟩⟩ := step_next_cases hstep
    · cases hcause
    · by_cases hhalt : i = .halt
      · rwa [hhalt] at hi
      · obtain ⟨-, hmem, -⟩ | ⟨-, -, hkept⟩ := e.raised_or_kept hhalt
        · exact absurd (hcause ▸ hmem) (none_not_mem_mayRaise i)
        · rw [hrun] at hkept
          exact absurd (hkept.trans hr) nofun
    · cases hcause
  · intro hhalt
    rw [step_of_runs hhalt] at hstep
    cases hstep
    exact ⟨rfl, h.cause_eq_none hhalt.1⟩

/-- Settles O48: a stopped machine, a waiting one, and the three ends of a step. -/
theorem outcomesOfACycle : Obligations.OutcomesOfACycle := by
  intro s h
  by_cases hr : s.run = true
  case neg =>
    have hstopped : s.run = false := by simpa using hr
    simp [cycleOutcome_of_stopped hstopped, hstopped]
  case pos =>
    obtain ⟨t, hstep⟩ := (stepExistsExactlyWhileRunning s).1 hr
    have hinv : Inv t := everyStepKeepsTheInvariant s t h hstep
    have hhalt := stops_without_cause_iff h hstep
    by_cases hw : Waits s
    · have hnot : ¬ Runs .halt s := fun hh => nomatch hh.unique hw.1
      rw [cycleOutcome_of_waits hw hstep]
      exact ⟨by simp [hr], ⟨fun _ => hw, fun _ => rfl⟩, by simp [hnot], nofun, nofun, nofun⟩
    · rw [cycleOutcome_of_not_waits hw hstep]
      by_cases hrun : t.run = true
      · have hnot : ¬ Runs .halt s := fun hh => absurd (hhalt.2 hh).1 (by simp [hrun])
        simp [hrun, hr, hw, hnot, hinv.cause_eq_none hrun]
      · by_cases hcause : t.cause = .none
        · have hh : Runs .halt s := hhalt.1 ⟨by simpa using hrun, hcause⟩
          rw [if_neg hrun, if_pos hcause]
          refine ⟨by simp [hr], by simp [hw], iff_of_true ⟨t, rfl⟩ hh, ?halted, nofun, nofun⟩
          case halted =>
            rintro _ ⟨rfl⟩
            exact ⟨by simpa using hrun, hcause, hinv.info_zero hcause⟩
        · have hnot : ¬ Runs .halt s := fun hh => hcause (hhalt.2 hh).2
          simp [hrun, hr, hw, hnot, hcause]

/-! ## What has no influence on a step -/

/-- A change of the state that no instruction sees, the input port aside: what the machine reads is as before, and every
update of a register or of data memory can be made before or after the change. -/
structure Unseen (f : State → State) : Prop where
  pc s : (f s).pc = s.pc
  sp s : (f s).sp = s.sp
  sl s : (f s).sl = s.sl
  run s : (f s).run = s.run
  rs s : (f s).rs = s.rs
  data s : (f s).data = s.data
  code s : (f s).code = s.code
  setPc s p : (f s).setPc p = f (s.setPc p)
  setSp s p : (f s).setSp p = f (s.setSp p)
  setSl s m : (f s).setSl m = f (s.setSl m)
  setRs s r : (f s).setRs r = f (s.setRs r)
  clearRun s : (f s).clearRun = f s.clearRun
  writeData s a v : writeData (f s) a v = f (writeData s a v)
  raise s c x : (f s).raise c x = f (s.raise c x)
  emit s v : emit v (f s) = f (emit v s)

section
variable {f : State → State} (hf : Unseen f)
include hf

theorem Unseen.readData (s : State) (a : Nat) : Machine.readData (f s) a = Machine.readData s a := by
  rw [Machine.readData, hf.data]; rfl

theorem Unseen.pop (s : State) : pop (f s) = ((pop s).1, f (pop s).2) := by
  unfold Machine.pop
  rw [hf.sp, hf.readData, hf.setSp]
  split <;> rfl

theorem Unseen.popTwo (s : State) : popTwo (f s) = ((popTwo s).1, (popTwo s).2.1, f (popTwo s).2.2) := by
  simp only [Machine.popTwo, hf.pop]

theorem Unseen.push (v : Word) (s : State) : push v (f s) = ((push v s).map f).mapError f := by
  unfold Machine.push pushTarget
  rw [hf.sp, hf.sl, hf.raise, hf.raise, hf.writeData, hf.setSp]
  split
  · rfl
  · split <;> rfl

theorem Unseen.finish_push (v : Word) (s : State) :
    finish (Machine.push v (f s)) = mapNext f (finish (Machine.push v s)) := by
  rw [hf.push]
  cases Machine.push v s <;> rfl

theorem Unseen.unaryOp (g : Word → Word) (s : State) : unaryOp g (f s) = mapNext f (unaryOp g s) := by
  rw [Machine.unaryOp, hf.pop, hf.finish_push]; rfl

theorem Unseen.binaryOp (g : Word → Word → Word) (s : State) : binaryOp g (f s) = mapNext f (binaryOp g s) := by
  rw [Machine.binaryOp, hf.popTwo, hf.finish_push]; rfl

theorem Unseen.divideOp (g : Word → Word → Word) (s : State) : divideOp g (f s) = mapNext f (divideOp g s) := by
  unfold Machine.divideOp
  rw [hf.popTwo]
  dsimp only
  rw [hf.raise, hf.finish_push]
  split <;> rfl

theorem Unseen.branchOn (taken : Word → Bool) (n : Operand) (s : State) :
    branchOn taken n (f s) = mapNext f (branchOn taken n s) := by
  unfold Machine.branchOn
  rw [hf.pop]
  dsimp only
  rw [hf.setPc]
  split <;> rfl

theorem Unseen.execCopy (s : State) : execCopy (f s) = mapNext f (execCopy s) := by
  unfold Machine.execCopy
  rw [hf.pop, hf.push]
  cases Machine.push (Machine.pop s).1 (Machine.pop s).2 with
  | error u => rfl
  | ok u => exact hf.finish_push _ u

theorem Unseen.execSto (s : State) : execSto (f s) = mapNext f (execSto s) := by
  unfold Machine.execSto
  rw [hf.popTwo]
  dsimp only
  split
  · rw [hf.raise]; rfl
  · rw [hf.writeData, recordStore, hf.sl, hf.setSl]; rfl

theorem Unseen.execRet (s : State) : execRet (f s) = mapNext f (execRet s) := by
  unfold Machine.execRet
  rw [hf.rs, hf.pc]
  split
  · rw [hf.raise]; rfl
  · rw [hf.setRs, hf.setPc]; rfl

/-- READ does not see the change when the input port does not. -/
theorem Unseen.execRead (htake : takeInput (f s) = (takeInput s).map (Prod.map id f)) :
    execRead (f s) = mapNext f (execRead s) := by
  unfold Machine.execRead
  rw [htake]
  cases takeInput s with
  | none => exact congrArg Host.Outcome.next (by rw [waitForInput, hf.pc, hf.setPc]; rfl)
  | some p => exact hf.finish_push p.1 p.2

/-- No instruction sees the change, when READ does not. -/
theorem Unseen.exec (i : Instr) (s : State)
    (htake : i = .read → takeInput (f s) = (takeInput s).map (Prod.map id f)) :
    exec i (f s) = mapNext f (exec i s) := by
  cases i with
  | halt => exact congrArg Host.Outcome.next (hf.clearRun s)
  | push | lvalue => exact hf.finish_push _ s
  | rvalue n => rw [exec_rvalue, exec_rvalue, hf.readData]; exact hf.finish_push _ s
  | pop => exact congrArg (fun p => Host.Outcome.next p.2) (hf.pop s)
  | sto => exact hf.execSto s
  | copy => exact hf.execCopy s
  | neg | not | shl | shr | sar => exact hf.unaryOp _ s
  | add | sub | mpy | or | and | eq | ne | gt | ge | lt | le | orb | andb | xorb => exact hf.binaryOp _ s
  | div | mod => exact hf.divideOp _ s
  | label => rfl
  | goto n => exact congrArg Host.Outcome.next (hf.setPc s _)
  | gofalse n => exact hf.branchOn (fun v => !isNonzero v) n s
  | gotrue n => exact hf.branchOn isNonzero n s
  | print =>
    change Host.Outcome.next (Machine.emit (Machine.pop (f s)).1 (Machine.pop (f s)).2) = _
    rw [hf.pop, hf.emit]; rfl
  | read => exact hf.execRead (htake rfl)
  | gosub n =>
    change Host.Outcome.next (((f s).setRs ((f s).rs ++ [(f s).pc])).setPc _) = _
    rw [hf.rs, hf.pc, hf.setRs, hf.setPc]; rfl
  | ret => exact hf.execRet s

/-- No step sees the change, when a READ does not. -/
theorem Unseen.step (s : State)
    (htake : Runs .read s → takeInput (f (incrementPc s)) = (takeInput (incrementPc s)).map (Prod.map id f)) :
    step (f s) = mapNext f (step s) := by
  have hfetch : fetchWord (f s) = fetchWord s := by rw [fetchWord, readCode, hf.code, hf.pc]; rfl
  have hpc : incrementPc (f s) = f (incrementPc s) := by rw [incrementPc, hf.pc, hf.setPc]; rfl
  unfold Machine.step cycle
  rw [hf.run, hf.pc, hfetch, hpc, hf.raise, raiseUnrecognized, hf.raise]
  split
  · rfl
  · rename_i hr
    split
    · rfl
    · rename_i hlt
      split
      · rename_i i hd
        exact hf.exec i _ fun hi => htake ⟨by simpa using hr, Nat.not_le.1 hlt, hi ▸ hd⟩
      · rfl

end

theorem unseen_out (o : List Word) : Unseen fun s => { s with out := o ++ s.out } := by
  constructor
  case emit => exact fun s v => by simp only [emit, List.append_assoc]
  all_goals intros; rfl

/-- Settles O57: no instruction reads the output, and PRINT appends at its end. -/
theorem outputIsNeverRead : Obligations.OutputIsNeverRead := by
  refine fun s o => (unseen_out o).step s fun _ => ?_
  obtain ⟨hnone, e⟩ | ⟨-, v, hv, e⟩ := takeInput_cases (incrementPc s)
  · rw [e]; exact takeInput_of_none hnone
  · rw [e]; exact takeInput_of_some hv

theorem unseen_deliver (ws : List Word) : Unseen (deliver ws) := by
  constructor <;> intros <;> rfl

/-- Settles O58: a READ that finds a word takes the same word whatever is delivered behind it. -/
theorem unreadInputHasNoInfluence : Obligations.UnreadInputHasNoInfluence := by
  refine fun s ws hw => (unseen_deliver ws).step s fun hread => ?_
  obtain ⟨hnone, -⟩ | ⟨hlt, v, hv, e⟩ := takeInput_cases (incrementPc s)
  · exact absurd ⟨hread, hnone⟩ hw
  · have hv' : (deliver ws (incrementPc s)).input[(deliver ws (incrementPc s)).inpos]? = some v := by
      rw [deliver_input, deliver_inpos, List.getElem?_append_left hlt, hv]
    rw [e, takeInput_of_some hv']; rfl

/-! ## Runs of a few steps -/

theorem run_succ {k : Nat} (h : step s = .next t) : core.run (k + 1) s = core.run k t := by
  have hcore : core.step s = .next t := h
  simp only [Host.Core.run, hcore]

/-- The instruction that stands at `pc` is a matter of `run`, `pc` and code memory. -/
theorem runs_of_code_eq {k : Nat} (hr : t.run = true) (hcode : t.code = s.code) (hpc : t.pc.toNat = k)
    (hk : k < Config.cap) (hd : decode (readCode s k) = .ok i) : Runs i t := by
  refine ⟨hr, hpc.trans_lt hk, ?_⟩
  rw [fetchWord, readCode, hcode, hpc]
  exact hd

/-- Settles O59: RET takes the address that GOSUB saved. -/
theorem gosubThenRetReturns : Obligations.GosubThenRetReturns := by
  intro s n h hret
  have hcall : step s = .next (((incrementPc s).setRs (s.rs ++ [s.pc + 1])).setPc (codeAddress n)) := step_of_runs h
  have hruns : Runs .ret (((incrementPc s).setRs (s.rs ++ [s.pc + 1])).setPc (codeAddress n)) :=
    runs_of_code_eq h.1 rfl (codeAddress_toNat n) n.isLt hret
  rw [run_succ hcall, run_succ ((step_of_runs hruns).trans (exec_ret_of_append rfl))]
  rfl

/-- The literal of an operand is its unsigned value, which is far below the sign bit. -/
theorem literal_toInt (n : Operand) : (literal n).toInt = n.toNat := by
  have hn := n.isLt
  rw [literal, BitVec.toInt_eq_toNat_of_lt] <;> rw [BitVec.toNat_setWidth_of_le (by decide)]
  omega

/-- A pop takes a pushed word off; only its cell keeps it. -/
theorem pop_afterPush (hd : DataWf s) (hc : CanPush s) (v : Word) :
    pop (afterPush v s) = (v, writeData s (s.sp.toNat - 1) v) := by
  have hsp := afterPush_sp_toNat hc v
  have hback : (afterPush v s).setSp ((afterPush v s).sp + 1) = writeData s (s.sp.toNat - 1) v := by
    rw [State.setSp_sp, BitVec.sub_add_cancel]; rfl
  obtain ⟨hlt, hle⟩ := hc
  rw [pop_of_lt (by omega), hsp, readData_afterPush_same hd, hback]

/-- A pop does not see a word written elsewhere than at `sp`. -/
theorem pop_writeData {a : Nat} (h : s.sp.toNat ≠ a) (v : Word) :
    pop (writeData s a v) = ((pop s).1, writeData (pop s).2 a v) := by
  unfold pop
  rw [writeData_sp, readData_writeData_other s v h]
  split <;> rfl

/-- Two pushed words are the operands of the next two-operand instruction, the later one on the right. -/
theorem popTwo_afterPush_afterPush (hd : DataWf s) (hc : CanPush s) (v w : Word) (hc' : CanPush (afterPush v s)) :
    popTwo (afterPush w (afterPush v s)) =
      (v, w, writeData (writeData s (s.sp.toNat - 1) v) ((afterPush v s).sp.toNat - 1) w) := by
  have hne : (afterPush v s).sp.toNat ≠ (afterPush v s).sp.toNat - 1 := by
    obtain ⟨hlt, -⟩ := hc'
    omega
  rw [popTwo, pop_afterPush (dataWf_afterPush hd hc v) hc', pop_writeData hne, pop_afterPush hd hc]

theorem step_push_of_runs {n : Operand} (h : Runs (.push n) s) (hc : CanPush s) :
    step s = .next (afterPush (literal n) (incrementPc s)) := by
  rw [step_of_runs h]
  exact congrArg finish (push_of_canPush (s := incrementPc s) (literal n) hc)

/-- The difference of two operands fits a word. -/
theorem aluSub_literal_toInt (a b : Operand) : (aluSub (literal a) (literal b)).toInt = (a.toNat : Int) - b.toNat := by
  have ha := a.isLt
  have hb := b.isLt
  rw [aluSub, literal_toInt, literal_toInt, wrap, BitVec.toInt_ofInt_eq_self (by decide) (by omega) (by omega)]

/-- SUB on two pushed literals pushes their difference where the first one stood. -/
theorem exec_sub_afterPush_afterPush (hd : DataWf s) (hc : CanPush s) (hc' : CanPush (afterPush (literal a) s)) :
    ∃ t, exec .sub (afterPush (literal b) (afterPush (literal a) s)) = .next t ∧ t.sp.toNat + 1 = s.sp.toNat ∧
      (readData t t.sp.toNat).toInt = (a.toNat : Int) - (b.toNat : Int) ∧
      (∀ x, s.sp.toNat ≤ x → readData t x = readData s x) ∧ t = { s with sp := t.sp, data := t.data } := by
  have hpops := popTwo_afterPush_afterPush hd hc (literal a) (literal b) hc'
  have hd' : DataWf (afterPush (literal b) (afterPush (literal a) s)) :=
    dataWf_afterPush (dataWf_afterPush hd hc _) hc' _
  obtain ⟨t, ht, hp⟩ := exists_pushed_binaryOp (s := afterPush (literal b) (afterPush (literal a) s))
    (f := aluSub) (v := aluSub (literal a) (literal b)) hd' (by rw [hpops]; exact hc) (by rw [hpops])
  rw [hpops] at hp
  have hsp : t.sp.toNat + 1 = s.sp.toNat := hp.sp_eq
  have hsp' := afterPush_sp_toNat hc (literal a)
  refine ⟨t, ht, hsp, by rw [hp.top_eq, aluSub_literal_toInt], fun x hx => ?_, hp.frame⟩
  rw [hp.other_eq x (by omega), readData_writeData_other _ _ (by omega), readData_writeData_other _ _ (by omega)]

/-- Settles O60: three increments of `pc` around the two pushes and the SUB. -/
theorem pushPushSubSubtractsInSourceOrder : Obligations.PushPushSubSubtractsInSourceOrder := by
  intro s a b hd hlt hle hpush hpc hpush' hsub
  have hpc₁ := incrementPc_pc_toNat hpush.2.1
  have hpc₂ : (incrementPc (incrementPc s)).pc.toNat = s.pc.toNat + 2 := by
    rw [incrementPc_pc_toNat (by omega), hpc₁]
  have hpc₃ : (incrementPc (incrementPc (incrementPc s))).pc.toNat = s.pc.toNat + 3 := by
    rw [incrementPc_pc_toNat (by omega), hpc₂]
  have hc : CanPush s := ⟨by omega, hle⟩
  have hsp := afterPush_sp_toNat hc (literal a)
  have hc' : CanPush (afterPush (literal a) s) := by
    rw [CanPush, hsp, State.setSp_sl, writeData_sl]; omega
  have hruns : Runs (.push b) (afterPush (literal a) (incrementPc s)) :=
    runs_of_code_eq hpush.1 rfl hpc₁ (by omega) hpush'
  have hruns' : Runs .sub (afterPush (literal b) (afterPush (literal a) (incrementPc (incrementPc s)))) :=
    runs_of_code_eq hpush.1 rfl hpc₂ hpc hsub
  obtain ⟨t, ht, hresult⟩ := exec_sub_afterPush_afterPush (a := a) (b := b)
    (s := incrementPc (incrementPc (incrementPc s))) hd hc hc'
  obtain ⟨htsp, htop, hold, hframe⟩ := hresult
  have htpc : t.pc = (incrementPc (incrementPc (incrementPc s))).pc := by
    have h := congrArg State.pc hframe
    exact h
  refine ⟨t, ?run, htsp, htop, hold, ?frame, by rw [htpc, hpc₃]⟩
  case run =>
    have hlast : core.run 1 _ = .next t := run_succ ((step_of_runs hruns').trans ht)
    exact (run_succ (step_push_of_runs hpush hc)).trans ((run_succ (step_push_of_runs hruns hc')).trans hlast)
  case frame => rw [htpc]; exact hframe

end Sys2Proof.Machine
end
